-- ==== Sys2Proof/Word.lean ====
section
/-! DEFINITION. The word types of the block (00_scope.md R8: every value is an unsigned bit vector of a stated
width; bit 0 is the least significant, R6). -/

namespace Sys2Proof

/-- One payload byte. -/
abbrev Byte := BitVec 8

/-- The 16-bit operation word (30_encoding.md R76, R82). -/
abbrev OpWord := BitVec 16

/-- A 29-bit extended CAN identifier as the block builds it (30_encoding.md R70). -/
abbrev CanId := BitVec 29

/-- A received raw identifier in its 32-bit container (10_state.md R35: the source's `RawIdentifier: u32`). -/
abbrev RawId := BitVec 32

/-- The eight payload bytes, indexed 0 to 7 (20_memory.md R50, R51). -/
abbrev Payload := Vector Byte 8

end Sys2Proof
end

