-- ==== Sys2Proof/Syntax.lean ====
section
/-! DEFINITION. The operations of MCC operation set version 1, one constructor per row of spec/opcode_table.json
(30_encoding.md R77). The operands of a constructor are the variable fields of its operation word (R76, R81); data
values come on the operand buses (10_state.md R35). -/

namespace Sys2Proof

inductive Instr where
  /-- CFG_NODE_ID (R191). -/
  | cfgNodeId
  /-- CFG_MODE (R192); `lg` is the LG bit, 1 for legacy mode. -/
  | cfgMode (lg : BitVec 1)
  /-- CTR_WRITE (R193); `ctr` is the ARG field. -/
  | ctrWrite (ctr : BitVec 3)
  /-- CTR_ADVANCE (R194). -/
  | ctrAdvance
  /-- HASH_DERIVE (R174). -/
  | hashDerive
  /-- HASH_MIX (R175); `ctr` is the ARG field, `lg` the LG bit. -/
  | hashMix (ctr : BitVec 3) (lg : BitVec 1)
  /-- NODE_HASH (R176). -/
  | nodeHash
  /-- BUILD_BOOTLOADER_START (R103). -/
  | buildBootloaderStart
  /-- BUILD_PING (R104). -/
  | buildPing
  /-- BUILD_SYSTEM_GO (R105). -/
  | buildSystemGo
  /-- BUILD_SYSTEM_HOLD (R106). -/
  | buildSystemHold
  /-- BUILD_SYSTEM_STOP (R107). -/
  | buildSystemStop
  /-- BUILD_MFX_DISCOVERY (R108). -/
  | buildMfxDiscovery
  /-- BUILD_MFX_BIND (R109). -/
  | buildMfxBind
  /-- BUILD_MFX_VERIFY (R110). -/
  | buildMfxVerify
  /-- BUILD_LOCO_SPEED (R112); `n` is the ARG field, the number N of variable payload bytes. -/
  | buildLocoSpeed (n : BitVec 3)
  /-- BUILD_LOCO_DIR (R113); `n` as above. -/
  | buildLocoDir (n : BitVec 3)
  /-- BUILD_LOCO_FUNC (R114); `n` as above. -/
  | buildLocoFunc (n : BitVec 3)
  /-- BUILD_BIND (R115). -/
  | buildBind
  /-- A reserved build code (R116); `opc` is the OPC field, 0x2C to 0x2F. -/
  | reservedBuild (opc : Byte)
  /-- PARSE (R141). -/
  | parse
  /-- CLASSIFY (R145). -/
  | classify
  /-- EXTRACT_DEVICE (R147). -/
  | extractDevice
deriving DecidableEq, Repr

end Sys2Proof
end

