-- ==== Sys2Proof/WellFormed.lean ====
section
/-! DEFINITION. Which terms of Instr are operations of the map (30_encoding.md R77). The widths of the LG and ARG
fields are in the types; every value of them is legal for the operations that use them (R79, R175, R193), and N in
5 to 7 decodes too. The one check left is the range of the reserved build codes. -/

namespace Sys2Proof

/-- OPC is one of the reserved build codes 0x2C to 0x2F (30_encoding.md R80). -/
def isReservedBuildOpc (opc : Byte) : Bool := 0x2C#8 ≤ opc && opc ≤ 0x2F#8

/-- The operation has an operation word of its own. -/
def wellFormed : Instr → Bool
  | .reservedBuild opc => isReservedBuildOpc opc
  | .cfgNodeId | .cfgMode _ | .ctrWrite _ | .ctrAdvance
  | .hashDerive | .hashMix _ _ | .nodeHash
  | .buildBootloaderStart | .buildPing | .buildSystemGo | .buildSystemHold | .buildSystemStop
  | .buildMfxDiscovery | .buildMfxBind | .buildMfxVerify
  | .buildLocoSpeed _ | .buildLocoDir _ | .buildLocoFunc _ | .buildBind
  | .parse | .classify | .extractDevice => true

end Sys2Proof
end

