-- ==== Sys2Proof/Decode.lean ====
section
/-! DEFINITION. The decoder of operation words (30_encoding.md R76, R78, R79) and, after it, the encoder written
from the operation map R77. -/

namespace Sys2Proof

/-- The causes of ILLEGAL_OP (60_exceptions.md R214). The block latches none of them: they name the decoder's
rejection for a reader and are no part of the state. -/
inductive IllegalCause where
  /-- RSV (bits 15:12) is not 0. -/
  | reservedBits
  /-- OPC is not in the operation map. -/
  | unmappedOpc
  /-- ARG is not 0 for an operation that does not use ARG. -/
  | argSet
  /-- LG is not 0 for an operation that does not use LG. -/
  | lgSet
deriving DecidableEq, Repr

/-- What an operation word decodes to. R79's result UNKNOWN_COMMAND for the words 0x002C to 0x002F is
`op (.reservedBuild opc)`, whose meaning raises it (R116; DESIGN CHOICE, notes/assumptions/12.md). -/
inductive Decoded where
  /-- The word is that operation. -/
  | op (i : Instr)
  /-- The word is illegal. -/
  | illegalOp (cause : IllegalCause)
deriving DecidableEq, Repr

/-- Bits 15:12 of an operation word, reserved (R76). -/
def wordRsv (w : OpWord) : BitVec 4 := w.extractLsb' 12 4

/-- Bit 11 of an operation word, the legacy-mode bit LG (R76). -/
def wordLg (w : OpWord) : BitVec 1 := w.extractLsb' 11 1

/-- Bits 10:8 of an operation word, the 3-bit argument ARG (R76). -/
def wordArg (w : OpWord) : BitVec 3 := w.extractLsb' 8 3

/-- Bits 7:0 of an operation word, the operation code OPC (R76). -/
def wordOpc (w : OpWord) : Byte := w.extractLsb' 0 8

/-- An operation that uses neither ARG nor LG: both must be 0 (R79). -/
def withoutFields (arg : BitVec 3) (lg : BitVec 1) (i : Instr) : Decoded :=
  if arg ≠ 0 then .illegalOp .argSet else if lg ≠ 0 then .illegalOp .lgSet else .op i

/-- An operation that uses LG only: ARG must be 0 (R79). -/
def withLgOnly (arg : BitVec 3) (i : Instr) : Decoded :=
  if arg ≠ 0 then .illegalOp .argSet else .op i

/-- An operation that uses ARG only: LG must be 0 (R79). -/
def withArgOnly (lg : BitVec 1) (i : Instr) : Decoded :=
  if lg ≠ 0 then .illegalOp .lgSet else .op i

/-- The case distinction of R79 on OPC, once RSV is known to be 0. -/
def decodeOpc (opc : Byte) (arg : BitVec 3) (lg : BitVec 1) : Decoded :=
  match opc with
  | 0x01#8 => withoutFields arg lg .cfgNodeId
  | 0x02#8 => withLgOnly arg (.cfgMode lg)
  | 0x03#8 => withArgOnly lg (.ctrWrite arg)
  | 0x04#8 => withoutFields arg lg .ctrAdvance
  | 0x10#8 => withoutFields arg lg .hashDerive
  | 0x11#8 => .op (.hashMix arg lg)
  | 0x12#8 => withoutFields arg lg .nodeHash
  | 0x20#8 => withoutFields arg lg .buildBootloaderStart
  | 0x21#8 => withoutFields arg lg .buildPing
  | 0x22#8 => withoutFields arg lg .buildSystemGo
  | 0x23#8 => withoutFields arg lg .buildSystemHold
  | 0x24#8 => withoutFields arg lg .buildSystemStop
  | 0x25#8 => withoutFields arg lg .buildMfxDiscovery
  | 0x26#8 => withoutFields arg lg .buildMfxBind
  | 0x27#8 => withoutFields arg lg .buildMfxVerify
  | 0x28#8 => withArgOnly lg (.buildLocoSpeed arg)
  | 0x29#8 => withArgOnly lg (.buildLocoDir arg)
  | 0x2A#8 => withArgOnly lg (.buildLocoFunc arg)
  | 0x2B#8 => withoutFields arg lg .buildBind
  | 0x2C#8 => withoutFields arg lg (.reservedBuild 0x2C#8)
  | 0x2D#8 => withoutFields arg lg (.reservedBuild 0x2D#8)
  | 0x2E#8 => withoutFields arg lg (.reservedBuild 0x2E#8)
  | 0x2F#8 => withoutFields arg lg (.reservedBuild 0x2F#8)
  | 0x40#8 => withoutFields arg lg .parse
  | 0x41#8 => withoutFields arg lg .classify
  | 0x42#8 => withoutFields arg lg .extractDevice
  | _ => .illegalOp .unmappedOpc

/-- `decode` of 30_encoding.md R79: total on the 65536 words. -/
def decode (w : OpWord) : Decoded :=
  if wordRsv w ≠ 0 then .illegalOp .reservedBits else decodeOpc (wordOpc w) (wordArg w) (wordLg w)

/-- The operation a word decodes to, or none where the word is illegal. -/
def decodeWord? (w : OpWord) : Option Instr :=
  match decode w with
  | .op i => some i
  | .illegalOp _ => none

/-- The operation word of an instruction whose bits are `w`, numbered as spec/opcode_table.json numbers them; every
bit from `nbits` on is 0. The block has one word length, 16 bits (R82), so a longer instruction is no word
(DESIGN CHOICE, notes/assumptions/13.md). -/
def tableWord (nbits w : Nat) : Option OpWord :=
  if nbits ≤ 16 then some (BitVec.ofNat 16 (w % 2 ^ nbits)) else none

/-- What the decoder reads from a table row's bits. -/
def decodeTableWord (nbits w : Nat) : Option Instr := (tableWord nbits w).bind decodeWord?

/-! ### The encoder -/

/-- The operation word with the given fields and RSV = 0 (R76). -/
def packWord (lg : BitVec 1) (arg : BitVec 3) (opc : Byte) : OpWord := 0#4 ++ lg ++ arg ++ opc

/-- The OPC column of the operation map (R77). -/
def opcOf : Instr → Byte
  | .cfgNodeId => 0x01
  | .cfgMode _ => 0x02
  | .ctrWrite _ => 0x03
  | .ctrAdvance => 0x04
  | .hashDerive => 0x10
  | .hashMix _ _ => 0x11
  | .nodeHash => 0x12
  | .buildBootloaderStart => 0x20
  | .buildPing => 0x21
  | .buildSystemGo => 0x22
  | .buildSystemHold => 0x23
  | .buildSystemStop => 0x24
  | .buildMfxDiscovery => 0x25
  | .buildMfxBind => 0x26
  | .buildMfxVerify => 0x27
  | .buildLocoSpeed _ => 0x28
  | .buildLocoDir _ => 0x29
  | .buildLocoFunc _ => 0x2A
  | .buildBind => 0x2B
  | .reservedBuild opc => opc
  | .parse => 0x40
  | .classify => 0x41
  | .extractDevice => 0x42

/-- The ARG column of the operation map (R77): the counter, N, or 0. -/
def argOf : Instr → BitVec 3
  | .ctrWrite ctr | .hashMix ctr _ => ctr
  | .buildLocoSpeed n | .buildLocoDir n | .buildLocoFunc n => n
  | .cfgNodeId | .cfgMode _ | .ctrAdvance | .hashDerive | .nodeHash
  | .buildBootloaderStart | .buildPing | .buildSystemGo | .buildSystemHold | .buildSystemStop
  | .buildMfxDiscovery | .buildMfxBind | .buildMfxVerify | .buildBind | .reservedBuild _
  | .parse | .classify | .extractDevice => 0

/-- The LG column of the operation map (R77): the legacy bit or 0. -/
def lgOf : Instr → BitVec 1
  | .cfgMode lg | .hashMix _ lg => lg
  | .cfgNodeId | .ctrWrite _ | .ctrAdvance | .hashDerive | .nodeHash
  | .buildBootloaderStart | .buildPing | .buildSystemGo | .buildSystemHold | .buildSystemStop
  | .buildMfxDiscovery | .buildMfxBind | .buildMfxVerify
  | .buildLocoSpeed _ | .buildLocoDir _ | .buildLocoFunc _ | .buildBind | .reservedBuild _
  | .parse | .classify | .extractDevice => 0

/-- The operation word of an instruction (R76, R77). -/
def encode (i : Instr) : OpWord := packWord (lgOf i) (argOf i) (opcOf i)

end Sys2Proof
end

