-- ==== Sys2Proof/Machine/State.lean ====
section
/-! DEFINITION. The state of the block (10_state.md R22), as plain data, and its value after reset (R38). -/

namespace Sys2Proof.Machine

/-- A register with its valid flag (10_state.md R32, R38; DEDUCED, notes/assumptions/4.md). The spec's reset state of such a
register is "unwritten", flag 0 and no value: "A model represents each such register as an optional value that is
absent at reset. It must not substitute zero." -/
inductive Reg (α : Type) where
  /-- The valid flag is 0 and the register holds no value. -/
  | unwritten
  /-- The valid flag is 1 and the register holds `v`. -/
  | holds (v : α)
deriving DecidableEq, Repr

/-- TX_ID and TX_DLC, which every successful BUILD_* writes together (R26). -/
structure TxHead where
  /-- TX_ID, 29 bits. -/
  id : CanId
  /-- TX_DLC, 4 bits. -/
  dlc : BitVec 4
deriving DecidableEq, Repr

/-- HDR_PRIO, HDR_CMD, HDR_STATUS and HDR_ADDR, which PARSE writes together (R28). -/
structure Header where
  /-- HDR_PRIO, bits 26:25 of an identifier. -/
  prio : BitVec 2
  /-- HDR_CMD, bits 24:17. -/
  cmd : Byte
  /-- HDR_STATUS, bit 16: 0 = Request, 1 = Response (30_encoding.md R74). -/
  status : BitVec 1
  /-- HDR_ADDR, bits 15:0. -/
  addr : BitVec 16
deriving DecidableEq, Repr

/-- DEV_IDENTITY and DEV_TYPE, which EXTRACT_DEVICE writes together (R30). -/
structure Device where
  /-- DEV_IDENTITY, 32 bits. -/
  identity : BitVec 32
  /-- DEV_TYPE, 16 bits. -/
  devType : BitVec 16
deriving DecidableEq, Repr

/-- The values on the operand buses while an operation issues (R35). -/
structure Buses where
  /-- opa, 32 bits. -/
  opa : BitVec 32
  /-- opd, 8 bytes. -/
  opd : Payload
  /-- opl, 4 bits. -/
  opl : BitVec 4
  /-- opb, 8 bits. -/
  opb : Byte
deriving DecidableEq, Repr

/-- One thing the host does to the block (R20, R34, R240). Reads of the output ports are no events: they change
nothing (R36). -/
inductive HostEvent where
  /-- The host presents an operation word together with the operand bus values (R34). -/
  | operation (word : OpWord) (buses : Buses)
  /-- The host resets the block (70_reset_and_hazards.md R240). -/
  | reset
deriving DecidableEq, Repr

/-- The errors an operation can raise (60_exceptions.md R211). -/
inductive Err where
  /-- A build named a logical command with no template. -/
  | unknownCommand
  /-- The operation word decodes to no operation. -/
  | illegalOp
  /-- A length would leave 0 to 8. -/
  | badLength
  /-- The operation needs an unwritten configuration or counter register. -/
  | unconfigured
deriving DecidableEq, Repr

/-- The registers of R22 and, last, the model's own input queue. -/
structure State where
  /-- NODE_ID with NODE_ID_V (R23). -/
  nodeId : Reg (BitVec 32)
  /-- LEGACY with LEGACY_V (R24). -/
  legacy : Reg (BitVec 1)
  /-- CTR with CTR_V (R25). -/
  ctr : Reg (BitVec 3)
  /-- TX_ID and TX_DLC with TX_V (R26). -/
  tx : Reg TxHead
  /-- TX_DATA[0..7]; a byte that no BUILD_* has written since reset holds no value (R32). -/
  txData : Vector (Reg Byte) 8
  /-- HDR_PRIO, HDR_CMD, HDR_STATUS and HDR_ADDR with HDR_V (R28). -/
  hdr : Reg Header
  /-- RES with RES_V (R29). -/
  res : Reg (BitVec 32)
  /-- DEV_IDENTITY and DEV_TYPE; they keep their values when DEV_V is cleared (R30; DEDUCED, notes/assumptions/5.md). -/
  dev : Reg Device
  /-- DEV_V (R30). -/
  devV : BitVec 1
  /-- STATUS (R31). -/
  status : BitVec 3
  /-- The MODEL's own field: what the host presents, in issue order; the head is at the operation port now
  (R34, R59; DESIGN CHOICE, notes/assumptions/1.md). -/
  issues : List HostEvent
deriving DecidableEq, Repr

/-- The reasons a step can stop the machine: none. Every error of the spec is a STATUS code with a next state
(60_exceptions.md R210, R220: "there is no crash-on-error policy"), so this type has no constructor, no meaning
raises it, and it is neither safe nor unsafe. -/
inductive Fault where
deriving DecidableEq, Repr

/-- The reasons the model can refuse an instruction. -/
inductive Refusal where
  /-- The host's name for an instruction without a meaning. No arm of exec raises it; stopping is safe. -/
  | notModelled (mnemonic : String)
deriving DecidableEq, Repr

/-- The state right after reset: every register unwritten, every valid flag 0, STATUS = 7 (RESET) (R38, R240), and
nothing presented on the operation port. -/
def State.reset : State where
  nodeId := .unwritten
  legacy := .unwritten
  ctr := .unwritten
  tx := .unwritten
  txData := Vector.replicate 8 .unwritten
  hdr := .unwritten
  res := .unwritten
  dev := .unwritten
  devV := 0
  status := 7
  issues := []

/-- One outcome of the machine. -/
abbrev Result := Host.Outcome State Fault Refusal

end Sys2Proof.Machine
end

