-- ==== Sys2Proof/Machine/Flags.lean ====
section
/-! DEFINITION. The STATUS codes and the valid flags. The block has no condition codes and no arithmetic flags
(10_state.md R31). -/

namespace Sys2Proof.Machine

/-- STATUS code OK: the operation completed and wrote its results (60_exceptions.md R211). -/
def statusOk : BitVec 3 := 0

/-- STATUS code RESET: no operation has completed since reset; only reset writes it (R211). -/
def statusReset : BitVec 3 := 7

/-- The STATUS code of an error (R211). -/
def Err.code : Err → BitVec 3
  | .unknownCommand => 1
  | .illegalOp => 2
  | .badLength => 3
  | .unconfigured => 4

/-- The valid flag of a register: 1 once it has been written since reset (10_state.md R32). -/
def Reg.valid {α : Type} : Reg α → BitVec 1
  | .unwritten => 0
  | .holds _ => 1

/-- The value of a register, absent while it is unwritten (R32). -/
def Reg.value? {α : Type} : Reg α → Option α
  | .unwritten => none
  | .holds v => some v

/-- A field of a register, unwritten while the register is. -/
def Reg.map {α β : Type} (f : α → β) : Reg α → Reg β
  | .unwritten => .unwritten
  | .holds v => .holds (f v)

/-- NODE_ID_V (R23). -/
def State.nodeIdV (s : State) : BitVec 1 := s.nodeId.valid

/-- LEGACY_V (R24). -/
def State.legacyV (s : State) : BitVec 1 := s.legacy.valid

/-- CTR_V (R25). -/
def State.ctrV (s : State) : BitVec 1 := s.ctr.valid

/-- TX_V (R26). -/
def State.txV (s : State) : BitVec 1 := s.tx.valid

/-- HDR_V (R28). -/
def State.hdrV (s : State) : BitVec 1 := s.hdr.valid

/-- RES_V (R29). -/
def State.resV (s : State) : BitVec 1 := s.res.valid

end Sys2Proof.Machine
end

