-- ==== Sys2Proof/Machine/Operands.lean ====
section
/-! DEFINITION. The operand forms: the buses sampled at issue (10_state.md R35), payload bytes copied from opd, and
numbers made of payload bytes (20_memory.md R53). The word's fields ARG and LG are the constructors' own operands
(30_encoding.md R81). -/

namespace Sys2Proof.Machine

/-- The buses where no operation is presented. No step reads them: a step runs an operation only when one is at the
port (DESIGN CHOICE, notes/assumptions/3.md). -/
def idleBuses : Buses where
  opa := 0
  opd := Vector.replicate 8 0
  opl := 0
  opb := 0

/-- The operand buses of what is at the operation port now (R34, R35). -/
def State.buses (s : State) : Buses :=
  match s.issues with
  | .operation _ b :: _ => b
  | .reset :: _ => idleBuses
  | [] => idleBuses

/-- A write of one TX_DATA byte: which byte, and the value. -/
abbrev ByteWrite := Fin 8 × Byte

/-- The byte indices below `n`, in ascending order (20_memory.md R51, R52). -/
def indicesBelow (n : Nat) : List (Fin 8) := (List.finRange 8).filter (fun k => k.val < n)

/-- The writes TX_DATA[k] <- opd[k] for k below `n` (R53: bytes that are only copied move index for index). -/
def copiedBytes (opd : Payload) (n : Nat) : List ByteWrite := (indicesBelow n).map (fun k => (k, opd[k]))

/-- The 16-bit number of two payload bytes, the byte at the lower index first (R53: big-endian). -/
def bigEndian16 (b0 b1 : Byte) : BitVec 16 := b0 ++ b1

/-- The 32-bit number of four payload bytes, the byte at the lowest index first (R53: big-endian). -/
def bigEndian32 (b0 b1 b2 b3 : Byte) : BitVec 32 := b0 ++ b1 ++ b2 ++ b3

end Sys2Proof.Machine
end

