-- ==== Sys2Proof/Machine/Ops.lean ====
section
/-! DEFINITION. The shared operations on the registers: ending an operation with an error or with its results
(60_exceptions.md R212, R213), and writing the output registers. The block has no trap, so raising an error is all
there is of taking an exception, and there is no return from one (R210). -/

namespace Sys2Proof.Machine

/-- `raise E` (R212): STATUS <- code(E), and no other register is written. -/
def raiseError (e : Err) (s : State) : State := { s with status := e.code }

/-- The end of every operation: with results, commit them and write STATUS <- OK (R213); with an error, raise it in
the state the operation saw (R212). Either way the block goes on (R220). -/
def complete (s : State) : Except Err State → Result
  | .ok t => .next { t with status := statusOk }
  | .error e => .next (raiseError e s)

/-- `TX_DATA[k] <- v` for each write in turn; every other byte keeps its value or stays unwritten (40_encoder.md
R100, R102). -/
def writeBytes (d : Vector (Reg Byte) 8) (writes : List ByteWrite) : Vector (Reg Byte) 8 :=
  writes.foldl (fun d w => d.set w.1 (.holds w.2)) d

/-- `RES <- zext_32(v); RES_V <- 1` (10_state.md R29). -/
def writeRes {n : Nat} (v : BitVec n) (s : State) : State := { s with res := .holds (v.setWidth 32) }

end Sys2Proof.Machine
end

