-- ==== Sys2Proof/Machine/Control.lean ====
section
/-! DEFINITION. The configuration and counter operations (43_control.md R190 to R194). -/

namespace Sys2Proof.Machine

/-- CFG_NODE_ID (R191): every 32-bit value is accepted. -/
def execCfgNodeId (s : State) : Result :=
  complete s (.ok { s with nodeId := .holds s.buses.opa })

/-- CFG_MODE (R192): CTR and CTR_V are left as they are. -/
def execCfgMode (lg : BitVec 1) (s : State) : Result :=
  complete s (.ok { s with legacy := .holds lg })

/-- CTR_WRITE (R193). -/
def execCtrWrite (ctr : BitVec 3) (s : State) : Result :=
  complete s (.ok { s with ctr := .holds ctr })

/-- CTR_ADVANCE (R194): one more, modulo 8; it needs CTR_V = 1 in either mode. -/
def execCtrAdvance (s : State) : Result :=
  complete s
    (match s.ctr with
      | .holds c => .ok { s with ctr := .holds (c + 1) }
      | .unwritten => .error .unconfigured)

end Sys2Proof.Machine
end

