-- ==== Sys2Proof/Machine/Identifier.lean ====
section
/-! DEFINITION. Packing and unpacking of the 29-bit identifier by bit positions alone (30_encoding.md R70 to R73,
20_memory.md R54). -/

namespace Sys2Proof.Machine

/-- `packId` of R71: priority at 26:25, command at 24:17, status at 16, address at 15:0; bits 28:27 are 0. -/
def packId (p : BitVec 2) (c : Byte) (s : BitVec 1) (a : BitVec 16) : BitVec 29 :=
  (p.setWidth 29 <<< 25) ||| (c.setWidth 29 <<< 17) ||| (s.setWidth 29 <<< 16) ||| a.setWidth 29

/-- `unpackId` of R72: total, no validation; bits 31:27 are not read (R73). -/
def unpackId (x : BitVec 32) : Header where
  prio := x.extractLsb' 25 2
  cmd := x.extractLsb' 17 8
  status := x.extractLsb' 16 1
  addr := x.extractLsb' 0 16

/-- Status bit of a request (R74). -/
def requestBit : BitVec 1 := 0

/-- Status bit of a response (R74). -/
def responseBit : BitVec 1 := 1

end Sys2Proof.Machine
end

