-- ==== Sys2Proof/Machine/Decoder.lean ====
section
/-! DEFINITION. The decoder operations PARSE, CLASSIFY and EXTRACT_DEVICE (41_decoder.md R140 to R148). They read
the operand buses only (R140). -/

namespace Sys2Proof.Machine

/-- `classify` of R144, the class codes of R143. Priority and address are not read. -/
def classifyFrame (x : RawId) (len : BitVec 4) : BitVec 4 :=
  match (unpackId x).cmd, (unpackId x).status with
  | 0x18#8, 0#1 => 1
  | 0x18#8, 1#1 => if len = 8 then 2 else 3
  | 0x01#8, 0#1 => 4
  | 0x01#8, 1#1 => if len = 0 then 5 else if len = 5 then 6 else if 7 ≤ len then 7 else 8
  | 0x02#8, 0#1 => 9
  | 0x02#8, 1#1 => 10
  | _, _ => 0

/-- The class PING_RESP_DEVICE of R143: a Ping response of length 8. -/
def classPingRespDevice : BitVec 4 := 2

/-- `require opl <= 8 else BAD_LENGTH` (R145, R147). -/
def requireLength {α : Type} (len : BitVec 4) (k : Except Err α) : Except Err α :=
  if len ≤ 8 then k else .error .badLength

/-- The Device of a Ping response payload (R146, R147): bytes 4 and 5 are not read. -/
def deviceOf (opd : Payload) : Device where
  identity := bigEndian32 opd[0] opd[1] opd[2] opd[3]
  devType := bigEndian16 opd[6] opd[7]

/-- PARSE (R141): never fails, and unknown commands pass through (R142). -/
def execParse (s : State) : Result :=
  complete s (.ok { s with hdr := .holds (unpackId s.buses.opa) })

/-- CLASSIFY (R145). -/
def execClassify (s : State) : Result :=
  complete s (requireLength s.buses.opl (.ok (writeRes (classifyFrame s.buses.opa s.buses.opl) s)))

/-- EXTRACT_DEVICE (R147): on a frame that is no Ping response of length 8, DEV_V <- 0 and the fields stay. -/
def execExtractDevice (s : State) : Result :=
  complete s (requireLength s.buses.opl
    (if classifyFrame s.buses.opa s.buses.opl = classPingRespDevice then
      .ok { s with dev := .holds (deviceOf s.buses.opd), devV := 1 }
    else .ok { s with devV := 0 }))

end Sys2Proof.Machine
end

