-- ==== Sys2Proof/Machine/Hash.lean ====
section
/-! DEFINITION. The identity hash: its functions (42_identity_hash.md R170 to R173) and the operations HASH_DERIVE,
HASH_MIX and NODE_HASH (R174 to R176). -/

namespace Sys2Proof.Machine

/-- `deriveHash` of R170: the exclusive or of the halves of a node identity. -/
def deriveHash (x : BitVec 32) : BitVec 16 := x.extractLsb' 16 16 ^^^ x.extractLsb' 0 16

/-- `mixCounter` of R171 (`legacy` = 0: the counter replaces bits 9:7) and R172 (`legacy` = 1: the fixed marker; the
counter is not read and bit 15 is kept, 90_conflicts.md C2). -/
def mixCounter (h : BitVec 16) (c : BitVec 3) (legacy : BitVec 1) : BitVec 16 :=
  if legacy = 1 then (h &&& 0xFF7F#16) ||| 0x0300#16
  else (h &&& 0xFC7F#16) ||| (c.setWidth 16 <<< 7)

/-- `nodeHash` of R173, of the block's own state. CTR is not read in legacy mode. -/
def nodeHash (s : State) : Except Err (BitVec 16) :=
  match s.nodeId, s.legacy with
  | .holds id, .holds lg =>
    if lg = 1 then .ok (mixCounter (deriveHash id) 0 1)
    else
      match s.ctr with
      | .holds c => .ok (mixCounter (deriveHash id) c 0)
      | .unwritten => .error .unconfigured
  | _, _ => .error .unconfigured

/-- HASH_DERIVE (R174). -/
def execHashDerive (s : State) : Result :=
  complete s (.ok (writeRes (deriveHash s.buses.opa) s))

/-- HASH_MIX (R175): the hash is opa[15:0], the counter and the mode come from the operation word. -/
def execHashMix (ctr : BitVec 3) (lg : BitVec 1) (s : State) : Result :=
  complete s (.ok (writeRes (mixCounter (s.buses.opa.extractLsb' 0 16) ctr lg) s))

/-- NODE_HASH (R176). -/
def execNodeHash (s : State) : Result :=
  complete s ((nodeHash s).map (fun h => writeRes h s))

end Sys2Proof.Machine
end

