-- ==== Sys2Proof/Config.lean ====
section
/-! DEFINITION. The implementation parameters of 00_scope.md R5. The source gives none of them a value, so each is
an opaque constant here: nothing in Lean can evaluate it or prove a value of it (DESIGN CHOICE, notes/assumptions/6.md). They are
configuration, fixed for a model instance, and no part of the state (10_state.md R40). -/

namespace Sys2Proof

/-- The eleven priority parameters PRIO_* of 00_scope.md R5, each 2 bits. -/
structure Priorities where
  /-- PRIO_BOOTLOADER_START -/
  bootloaderStart : BitVec 2
  /-- PRIO_PING -/
  ping : BitVec 2
  /-- PRIO_SYSTEM_GO -/
  systemGo : BitVec 2
  /-- PRIO_SYSTEM_HOLD -/
  systemHold : BitVec 2
  /-- PRIO_SYSTEM_STOP -/
  systemStop : BitVec 2
  /-- PRIO_MFX_DISCOVERY -/
  mfxDiscovery : BitVec 2
  /-- PRIO_MFX_BIND -/
  mfxBind : BitVec 2
  /-- PRIO_LOCO_SPEED -/
  locoSpeed : BitVec 2
  /-- PRIO_LOCO_DIR -/
  locoDir : BitVec 2
  /-- PRIO_LOCO_FUNC -/
  locoFunc : BitVec 2
  /-- PRIO_SYSTEM, the priority of the bind request (40_encoder.md R115) -/
  system : BitVec 2
deriving DecidableEq, Repr, Inhabited

/-- The priorities of this model instance: OPEN in the spec (R5, 92_eei_decisions.md D8), so no value is known. -/
opaque Config.prio : Priorities

end Sys2Proof
end

