-- ==== Sys2Proof/Machine/Template.lean ====
section
/-! DEFINITION. The template table of 30_encoding.md R75, kept as one table (93_implementation_defined.md U1): it is
configuration, fixed for a model instance (10_state.md R40). -/

namespace Sys2Proof.Machine

/-- The node's logical commands (00_scope.md, Glossary "Logical command"). -/
inductive LogicalCommand where
  | bootloaderStart | ping | systemGo | systemHold | systemStop
  | mfxDiscovery | mfxBind | mfxVerify | locoSpeed | locoDir | locoFunc
deriving DecidableEq, Repr

/-- The columns "length" and "bytes the template writes" of R75. -/
inductive PayloadRule where
  /-- A fixed length, and the fixed bytes the template writes. -/
  | fixed (len : BitVec 4) (writes : List ByteWrite)
  /-- A fixed length, and every byte below it copied from opd. -/
  | copied (len : BitVec 4)
  /-- Length 4 + N, and every byte below it copied from opd. -/
  | addressPlusN
deriving DecidableEq, Repr

/-- One row of R75. The status of every row is Request (R74, R75). -/
structure Template where
  /-- The command code. -/
  code : Byte
  /-- The priority parameter. -/
  prio : BitVec 2
  /-- Length and written bytes. -/
  payload : PayloadRule
  /-- Whether the broadcast fill runs (40_encoder.md R101). -/
  broadcast : Bool
deriving DecidableEq, Repr

/-- The template table of R75 under the priorities `p`. MfxVerify has no row (90_conflicts.md C3). -/
def template? (p : Priorities) : LogicalCommand → Option Template
  | .bootloaderStart => some ⟨0x1B, p.bootloaderStart, .fixed 5 [(4, 0x11)], true⟩
  | .ping => some ⟨0x18, p.ping, .fixed 0 [], false⟩
  | .systemGo => some ⟨0x00, p.systemGo, .fixed 5 [(4, 0x01)], true⟩
  | .systemHold => some ⟨0x00, p.systemHold, .fixed 5 [(4, 0x02)], true⟩
  | .systemStop => some ⟨0x00, p.systemStop, .fixed 5 [(4, 0x00)], true⟩
  | .mfxDiscovery => some ⟨0x01, p.mfxDiscovery, .fixed 1 [(0, 0x20)], false⟩
  | .mfxBind => some ⟨0x02, p.mfxBind, .copied 6, false⟩
  | .mfxVerify => none
  | .locoSpeed => some ⟨0x04, p.locoSpeed, .addressPlusN, false⟩
  | .locoDir => some ⟨0x05, p.locoDir, .addressPlusN, false⟩
  | .locoFunc => some ⟨0x06, p.locoFunc, .addressPlusN, false⟩

end Sys2Proof.Machine
end

