-- ==== Sys2Proof/Machine/Encoder.lean ====
section
/-! DEFINITION. The encoder operations BUILD_* (40_encoder.md R100 to R118). Every meaning reads the priorities of
the model instance, `Config.prio`; the shared operations take them as an argument (00_scope.md R5). -/

namespace Sys2Proof.Machine

/-- The writes of the broadcast fill, TX_DATA[0..3] <- 0x00 (R101). -/
def broadcastWrites : List ByteWrite := [(0, 0x00), (1, 0x00), (2, 0x00), (3, 0x00)]

/-- The value of TX_DATA after a build: the named bytes, then the broadcast fill where it runs (R100, R101). -/
def builtData (d : Vector (Reg Byte) 8) (writes : List ByteWrite) (bcast : Bool) : Vector (Reg Byte) 8 :=
  if bcast then writeBytes (writeBytes d writes) broadcastWrites else writeBytes d writes

/-- `buildFrame` of R100: UNCONFIGURED unless the state has a node hash; then TX_ID, TX_DLC, the named TX_DATA bytes
and TX_V. The status bit is that of a request. -/
def buildFrame (code : Byte) (prio : BitVec 2) (len : BitVec 4) (writes : List ByteWrite) (bcast : Bool)
    (s : State) : Except Err State :=
  match nodeHash s with
  | .ok h =>
    .ok { s with
      tx := .holds { id := packId prio code requestBit h, dlc := len }
      txData := builtData s.txData writes bcast }
  | .error e => .error e

/-- The build of a logical command: UNKNOWN_COMMAND where the table has no row (R110), BAD_LENGTH where 4 + N would
exceed 8 (R111), then `buildFrame`; so the errors are checked in the order of 60_exceptions.md R218. `n` is the ARG
field, which only the loco-control templates read. -/
def buildCommand (p : Priorities) (cmd : LogicalCommand) (n : BitVec 3) (s : State) : Except Err State :=
  match template? p cmd with
  | none => .error .unknownCommand
  | some t =>
    match t.payload with
    | .fixed len writes => buildFrame t.code t.prio len writes t.broadcast s
    | .copied len => buildFrame t.code t.prio len (copiedBytes s.buses.opd len.toNat) t.broadcast s
    | .addressPlusN =>
      if n ≤ 4 then
        buildFrame t.code t.prio (4 + n.setWidth 4) (copiedBytes s.buses.opd (4 + n.toNat)) t.broadcast s
      else .error .badLength

/-- The bind request of R115: the discovered identity from opd[0..3], 0x00, and the local address from opb. -/
def buildBindRequest (p : Priorities) (s : State) : Except Err State :=
  buildFrame 0x02 p.system 6
    [(0, s.buses.opd[0]), (1, s.buses.opd[1]), (2, s.buses.opd[2]), (3, s.buses.opd[3]), (4, 0x00), (5, s.buses.opb)]
    false s

/-- BUILD_BOOTLOADER_START (R103). -/
def execBuildBootloaderStart (s : State) : Result := complete s (buildCommand Config.prio .bootloaderStart 0 s)

/-- BUILD_PING (R104). -/
def execBuildPing (s : State) : Result := complete s (buildCommand Config.prio .ping 0 s)

/-- BUILD_SYSTEM_GO (R105). -/
def execBuildSystemGo (s : State) : Result := complete s (buildCommand Config.prio .systemGo 0 s)

/-- BUILD_SYSTEM_HOLD (R106). -/
def execBuildSystemHold (s : State) : Result := complete s (buildCommand Config.prio .systemHold 0 s)

/-- BUILD_SYSTEM_STOP (R107). -/
def execBuildSystemStop (s : State) : Result := complete s (buildCommand Config.prio .systemStop 0 s)

/-- BUILD_MFX_DISCOVERY (R108). -/
def execBuildMfxDiscovery (s : State) : Result := complete s (buildCommand Config.prio .mfxDiscovery 0 s)

/-- BUILD_MFX_BIND (R109). -/
def execBuildMfxBind (s : State) : Result := complete s (buildCommand Config.prio .mfxBind 0 s)

/-- BUILD_MFX_VERIFY (R110): its effect is UNKNOWN_COMMAND, always, because the table has no row for it. -/
def execBuildMfxVerify (s : State) : Result := complete s (buildCommand Config.prio .mfxVerify 0 s)

/-- BUILD_LOCO_SPEED (R112). -/
def execBuildLocoSpeed (n : BitVec 3) (s : State) : Result := complete s (buildCommand Config.prio .locoSpeed n s)

/-- BUILD_LOCO_DIR (R113). -/
def execBuildLocoDir (n : BitVec 3) (s : State) : Result := complete s (buildCommand Config.prio .locoDir n s)

/-- BUILD_LOCO_FUNC (R114). -/
def execBuildLocoFunc (n : BitVec 3) (s : State) : Result := complete s (buildCommand Config.prio .locoFunc n s)

/-- BUILD_BIND (R115). -/
def execBuildBind (s : State) : Result := complete s (buildBindRequest Config.prio s)

/-- The reserved build codes (R116): UNKNOWN_COMMAND, whichever of the four codes it is. -/
def execReservedBuild (_opc : Byte) (s : State) : Result := complete s (.error .unknownCommand)

end Sys2Proof.Machine
end

