-- ==== Sys2Proof/Machine/Dispatch.lean ====
section
/-! DEFINITION. The meaning of every operation, one arm per constructor of Instr (30_encoding.md R77). -/

namespace Sys2Proof.Machine

def exec (i : Instr) (s : State) : Host.Outcome State Fault Refusal :=
  match i with
  | .cfgNodeId => Sys2Proof.Machine.execCfgNodeId s
  | .cfgMode lg => Sys2Proof.Machine.execCfgMode lg s
  | .ctrWrite ctr => Sys2Proof.Machine.execCtrWrite ctr s
  | .ctrAdvance => Sys2Proof.Machine.execCtrAdvance s
  | .hashDerive => Sys2Proof.Machine.execHashDerive s
  | .hashMix ctr lg => Sys2Proof.Machine.execHashMix ctr lg s
  | .nodeHash => Sys2Proof.Machine.execNodeHash s
  | .buildBootloaderStart => Sys2Proof.Machine.execBuildBootloaderStart s
  | .buildPing => Sys2Proof.Machine.execBuildPing s
  | .buildSystemGo => Sys2Proof.Machine.execBuildSystemGo s
  | .buildSystemHold => Sys2Proof.Machine.execBuildSystemHold s
  | .buildSystemStop => Sys2Proof.Machine.execBuildSystemStop s
  | .buildMfxDiscovery => Sys2Proof.Machine.execBuildMfxDiscovery s
  | .buildMfxBind => Sys2Proof.Machine.execBuildMfxBind s
  | .buildMfxVerify => Sys2Proof.Machine.execBuildMfxVerify s
  | .buildLocoSpeed n => Sys2Proof.Machine.execBuildLocoSpeed n s
  | .buildLocoDir n => Sys2Proof.Machine.execBuildLocoDir n s
  | .buildLocoFunc n => Sys2Proof.Machine.execBuildLocoFunc n s
  | .buildBind => Sys2Proof.Machine.execBuildBind s
  | .reservedBuild opc => Sys2Proof.Machine.execReservedBuild opc s
  | .parse => Sys2Proof.Machine.execParse s
  | .classify => Sys2Proof.Machine.execClassify s
  | .extractDevice => Sys2Proof.Machine.execExtractDevice s

end Sys2Proof.Machine
end

