-- ==== Sys2Proof/Machine/Port.lean ====
section
/-! DEFINITION. The operation port: running a word, serving what the host presents, and taking it off the port when
it has completed (10_state.md R34). -/

namespace Sys2Proof.Machine

/-- The operation of word `w` on the operand buses at the port: the meaning of what it decodes to, or ILLEGAL_OP
(30_encoding.md R79, 60_exceptions.md R214). The word is checked before anything else (R218). -/
def runWord (w : OpWord) (s : State) : Result :=
  match decode w with
  | .op i => exec i s
  | .illegalOp _ => .next (raiseError .illegalOp s)

/-- The state once what was at the port is gone: the next thing the host presents is at the port (R34, R59). -/
def State.advancePort (s : State) : State := { s with issues := s.issues.tail }

/-- An outcome with the port advanced. -/
def thenAdvance : Result → Result
  | .next t => .next t.advancePort
  | .fault r => .fault r
  | .refused r => .refused r

/-- The reset event (70_reset_and_hazards.md R240): every register takes its reset value. What the host presents is
the host's and stays (DESIGN CHOICE, notes/assumptions/11.md). -/
def resetRegisters (s : State) : State := { State.reset with issues := s.issues }

/-- One thing the host does, from presenting it to its completion (R33, R34, R240). -/
def serve (e : HostEvent) (s : State) : Result :=
  match e with
  | .operation w _ => thenAdvance (runWord w s)
  | .reset => .next (resetRegisters s).advancePort

/-- The block takes what is at the port. Where the host presents nothing, no register changes, because a register
changes only through operations or reset (10_state.md R22; DEDUCED, notes/assumptions/2.md). -/
def takeFromPort (s : State) : Result :=
  match s.issues with
  | [] => .next s
  | e :: _ => serve e s

/-- The host presents the word `w` next, on the buses it drives now. -/
def State.present (w : OpWord) (s : State) : State := { s with issues := .operation w s.buses :: s.issues }

/-- `s` with a table row's instruction at the port, where it is a word of the block (R82). -/
def State.presentTableWord (nbits w : Nat) (s : State) : State :=
  match tableWord nbits w with
  | some v => s.present v
  | none => s

end Sys2Proof.Machine
end

