-- ==== Sys2Proof/Machine/Step.lean ====
section
/-! DEFINITION. One step of the machine. -/

namespace Sys2Proof.Machine

/-- One step: the block serves what the host presents on the operation port (10_state.md R20, R33, R34). -/
def step (s : State) : Host.Outcome State Fault Refusal := takeFromPort s

/-- `s` with the instruction of an opcode-table row presented on the operation port, so that the next step runs it
(DESIGN CHOICE, notes/assumptions/1.md). -/
def State.withFetchWord (s : State) (nbits w : Nat) : State := s.presentTableWord nbits w

end Sys2Proof.Machine
end

