-- ==== Sys2Proof/Machine/Assembly.lean ====
section
/-! DEFINITION. The assembly syntax (30_encoding.md R83) and the pseudo-operations (R84): what a line of assembly
text presents on the operation port. It is the host's notation, no part of a step. A line is a list of characters.
What a line says nothing of on the buses comes from an argument `others : Buses`, so that it stays open: R83 calls the
bytes after a short opd list "don't care" and gives an omitted bus no value. Which texts that R83 and R84 do not
describe are accepted, and which rejected, is the model's choice (DESIGN CHOICE, notes/assumptions/14.md). -/

namespace Sys2Proof.Machine

/-- The value of a digit in the given base, absent for any other character. -/
def digitValue (base : Nat) (c : Char) : Option Nat :=
  let v :=
    if '0' ≤ c ∧ c ≤ '9' then c.toNat - '0'.toNat
    else if 'a' ≤ c ∧ c ≤ 'f' then c.toNat - 'a'.toNat + 10
    else if 'A' ≤ c ∧ c ≤ 'F' then c.toNat - 'A'.toNat + 10
    else base
  if v < base then some v else none

/-- The number of a digit string, the most significant digit first, after the digits already read. -/
def readDigits (base : Nat) (acc : Nat) : List Char → Option Nat
  | [] => some acc
  | c :: cs =>
    match digitValue base c with
    | some v => readDigits base (acc * base + v) cs
    | none => none

/-- A number of R83: decimal, `0x` hexadecimal or `0b` binary, below `bound`. -/
def readNumber (bound : Nat) (cs : List Char) : Option Nat :=
  let n :=
    match cs with
    | '0' :: 'x' :: d :: ds => readDigits 16 0 (d :: ds)
    | '0' :: 'b' :: d :: ds => readDigits 2 0 (d :: ds)
    | d :: ds => readDigits 10 0 (d :: ds)
    | [] => none
  n.bind (fun v => if v < bound then some v else none)

/-- A space or a tab. -/
def isBlank (c : Char) : Bool := c == ' ' || c == '\t'

/-- The text without blanks at either end. -/
def trimBlanks (cs : List Char) : List Char := ((cs.dropWhile isBlank).reverse.dropWhile isBlank).reverse

/-- The parts of a text between separators that stand in no bracket; `cur` is the part read so far, reversed. -/
def splitParts (sep : Char) (inBracket : Bool) (cur : List Char) : List Char → List (List Char)
  | [] => [cur.reverse]
  | c :: cs =>
    if c == sep && !inBracket then cur.reverse :: splitParts sep false [] cs
    else splitParts sep (if c == '[' then true else if c == ']' then false else inBracket) (c :: cur) cs

/-- The trimmed parts of a comma-separated list; the empty text has none. -/
def commaParts (cs : List Char) : List (List Char) :=
  if trimBlanks cs = [] then [] else (splitParts ',' false [] cs).map trimBlanks

/-- A part `name=value` as its two trimmed sides. -/
def nameValue (cs : List Char) : Option (List Char × List Char) :=
  match splitParts '=' false [] cs with
  | [k, v] => some (trimBlanks k, trimBlanks v)
  | _ => none

/-- The comma-separated assignments of a text. -/
def assignments (cs : List Char) : Option (List (List Char × List Char)) := (commaParts cs).mapM nameValue

/-- The text assigned to a name: absent if it is not assigned. -/
def assigned (name : String) (l : List (List Char × List Char)) : Option (List Char) := l.lookup name.toList

/-- A number assigned to a name: 0 if it is not assigned (R83: an omitted field is 0). -/
def assignedNumber (name : String) (bound : Nat) (l : List (List Char × List Char)) : Option Nat :=
  match assigned name l with
  | none => some 0
  | some cs => readNumber bound cs

/-- Only the given names are assigned, and none twice. -/
def assignsOnly (names : List String) (l : List (List Char × List Char)) : Bool :=
  (l.map Prod.fst).Nodup && l.all (fun a => names.any (fun n => n.toList == a.1))

/-- The bytes of a bracketed list `[b0, b1, ...]` of at most 8. The empty list is accepted (DESIGN CHOICE,
notes/assumptions/14.md). -/
def readBytes (cs : List Char) : Option (List Byte) :=
  match cs with
  | '[' :: rest =>
    match rest.reverse with
    | ']' :: inside =>
      match (commaParts inside.reverse).mapM (readNumber 256) with
      | some bs => if bs.length ≤ 8 then some (bs.map (BitVec.ofNat 8)) else none
      | none => none
    | _ => none
  | _ => none

/-- The eight opd bytes of a byte list; the bytes after a shorter list are those of `others` (R83). -/
def payloadOf (others : Payload) (bs : List Byte) : Payload := Vector.ofFn (fun k : Fin 8 => bs.getD k.val others[k])

/-- A number assigned to a bus of `w` bits, or the bus's value on `others` (R83). -/
def assignedBus (name : String) (w : Nat) (others : BitVec w) (l : List (List Char × List Char)) : Option (BitVec w) :=
  match assigned name l with
  | none => some others
  | some cs => (readNumber (2 ^ w) cs).map (BitVec.ofNat w)

/-- The bus values of the part after `|` (R83). -/
def readBuses (others : Buses) (cs : List Char) : Option Buses := do
  let l ← assignments cs
  guard (assignsOnly ["opa", "opd", "opl", "opb"] l)
  let opa ← assignedBus "opa" 32 others.opa l
  let opd ← (match assigned "opd" l with
    | some bs => (readBytes bs).map (payloadOf others.opd)
    | none => some others.opd)
  let opl ← assignedBus "opl" 4 others.opl l
  let opb ← assignedBus "opb" 8 others.opb l
  pure { opa := opa, opd := opd, opl := opl, opb := opb }

/-- A mnemonic of R77 with the word fields it is written with (R83) and its operation. -/
structure AsmRow where
  /-- The mnemonic. -/
  mnemonic : String
  /-- The names of its word fields. -/
  fields : List String
  /-- The operation for values of ARG and LG. -/
  operation : BitVec 3 → BitVec 1 → Instr

/-- The mnemonics of the operation map (R77). -/
def asmRows : List AsmRow :=
  [⟨"CFG_NODE_ID", [], fun _ _ => .cfgNodeId⟩, ⟨"CFG_MODE", ["legacy"], fun _ l => .cfgMode l⟩,
   ⟨"CTR_WRITE", ["ctr"], fun a _ => .ctrWrite a⟩, ⟨"CTR_ADVANCE", [], fun _ _ => .ctrAdvance⟩,
   ⟨"HASH_DERIVE", [], fun _ _ => .hashDerive⟩, ⟨"HASH_MIX", ["ctr", "legacy"], fun a l => .hashMix a l⟩,
   ⟨"NODE_HASH", [], fun _ _ => .nodeHash⟩,
   ⟨"BUILD_BOOTLOADER_START", [], fun _ _ => .buildBootloaderStart⟩, ⟨"BUILD_PING", [], fun _ _ => .buildPing⟩,
   ⟨"BUILD_SYSTEM_GO", [], fun _ _ => .buildSystemGo⟩, ⟨"BUILD_SYSTEM_HOLD", [], fun _ _ => .buildSystemHold⟩,
   ⟨"BUILD_SYSTEM_STOP", [], fun _ _ => .buildSystemStop⟩,
   ⟨"BUILD_MFX_DISCOVERY", [], fun _ _ => .buildMfxDiscovery⟩, ⟨"BUILD_MFX_BIND", [], fun _ _ => .buildMfxBind⟩,
   ⟨"BUILD_MFX_VERIFY", [], fun _ _ => .buildMfxVerify⟩,
   ⟨"BUILD_LOCO_SPEED", ["n"], fun a _ => .buildLocoSpeed a⟩, ⟨"BUILD_LOCO_DIR", ["n"], fun a _ => .buildLocoDir a⟩,
   ⟨"BUILD_LOCO_FUNC", ["n"], fun a _ => .buildLocoFunc a⟩, ⟨"BUILD_BIND", [], fun _ _ => .buildBind⟩,
   ⟨"PARSE", [], fun _ _ => .parse⟩, ⟨"CLASSIFY", [], fun _ _ => .classify⟩,
   ⟨"EXTRACT_DEVICE", [], fun _ _ => .extractDevice⟩]

/-- The operation of a mnemonic and the text of its word fields. -/
def assembleOperation (mnemonic fields : List Char) : Option Instr := do
  let row ← asmRows.find? (fun r => r.mnemonic.toList == mnemonic)
  let l ← assignments fields
  guard (assignsOnly row.fields l)
  let ctr ← assignedNumber "ctr" 8 l
  let n ← assignedNumber "n" 8 l
  let lg ← assignedNumber "legacy" 2 l
  pure (row.operation (BitVec.ofNat 3 (ctr + n)) (BitVec.ofNat 1 lg))

/-- The event that presents an operation on the given buses. -/
def presents (i : Instr) (b : Buses) : HostEvent := .operation (encode i) b

/-- `INIT id=V, legacy=L, ctr=C` (R84). -/
def expandInit (others : Buses) (id : BitVec 32) (lg : BitVec 1) (ctr : BitVec 3) : List HostEvent :=
  [presents .cfgNodeId { others with opa := id }, presents (.cfgMode lg) others, presents (.ctrWrite ctr) others]

/-- `HASH_LEGACY | opa=H` (R84). -/
def expandHashLegacy (b : Buses) : List HostEvent := [presents (.hashMix 0 1) b]

/-- `BUILD_SYSTEM go`, `hold` or `stop` (R84). -/
def expandBuildSystem (which : List Char) : Option Instr :=
  if which = "go".toList then some .buildSystemGo
  else if which = "hold".toList then some .buildSystemHold
  else if which = "stop".toList then some .buildSystemStop
  else none

/-- `INIT` with the text of its arguments (R84). -/
def assembleInit (others : Buses) (args : List Char) : Option (List HostEvent) := do
  let l ← assignments args
  guard (assignsOnly ["id", "legacy", "ctr"] l)
  let id ← assignedNumber "id" (2 ^ 32) l
  let lg ← assignedNumber "legacy" 2 l
  let ctr ← assignedNumber "ctr" 8 l
  pure (expandInit others (BitVec.ofNat 32 id) (BitVec.ofNat 1 lg) (BitVec.ofNat 3 ctr))

/-- The part of a line before `|` and the part after it. -/
def lineParts (cs : List Char) : Option (List Char × List Char) :=
  match splitParts '|' false [] (cs.takeWhile (· ≠ ';')) with
  | [l] => some (trimBlanks l, [])
  | [l, b] => some (trimBlanks l, b)
  | _ => none

/-- What a line of assembly presents on the operation port: nothing for an empty line or a comment (R83), the
expansion for a pseudo-operation (R84). DESIGN CHOICE (notes/assumptions/14.md): a `|` with nothing but blanks after it
is accepted and assigns no bus, as if the line had no `|`, though R83's form has at least one `bus=value` there; so
`BUILD_PING |` is BUILD_PING, and a lone `|` is an empty line. -/
def assembleLine (others : Buses) (cs : List Char) : Option (List HostEvent) := do
  let (left, right) ← lineParts cs
  let word := left.takeWhile (fun c => !isBlank c)
  let args := trimBlanks (left.dropWhile (fun c => !isBlank c))
  let b ← readBuses others right
  if word = [] then (if trimBlanks right = [] then some [] else none)
  else if word = "INIT".toList then (if trimBlanks right = [] then assembleInit others args else none)
  else if word = "HASH_LEGACY".toList then (if args = [] then some (expandHashLegacy b) else none)
  else if word = "BUILD_SYSTEM".toList then (expandBuildSystem args).map (fun i => [presents i b])
  else (assembleOperation word args).map (fun i => [presents i b])

/-- What the lines of a program present, in order. -/
def assemble (others : Buses) : List (List Char) → Option (List HostEvent)
  | [] => some []
  | l :: ls =>
    match assembleLine others l, assemble others ls with
    | some es, some rest => some (es ++ rest)
    | _, _ => none

end Sys2Proof.Machine
end

