-- ==== Sys2Proof/Machine/Ports.lean ====
section
/-! DEFINITION. What the host reads: the output ports (10_state.md R36) and the transmitted frame (R27). A read is a
function of the state, so it has no side effect. -/

namespace Sys2Proof.Machine

/-- The output ports of R36: every register of R22 but NODE_ID, LEGACY and CTR with their flags, which
R36 does not name (DEDUCED, notes/assumptions/16.md). An unwritten register gives the host no value (R32). -/
structure Outputs where
  txId : Reg CanId
  txDlc : Reg (BitVec 4)
  txData : Vector (Reg Byte) 8
  txV : BitVec 1
  hdrPrio : Reg (BitVec 2)
  hdrCmd : Reg Byte
  hdrStatus : Reg (BitVec 1)
  hdrAddr : Reg (BitVec 16)
  hdrV : BitVec 1
  res : Reg (BitVec 32)
  resV : BitVec 1
  devIdentity : Reg (BitVec 32)
  devType : Reg (BitVec 16)
  devV : BitVec 1
  status : BitVec 3
deriving DecidableEq, Repr

/-- A register as the host reads it under a valid flag: no value while the flag is 0 (R32). -/
def underFlag {α : Type} (v : BitVec 1) (r : Reg α) : Reg α := if v = 1 then r else .unwritten

/-- What the host reads on the output ports (R36). DEV_IDENTITY and DEV_TYPE give no value while DEV_V is 0, though
the block keeps them (R32, R30; DEDUCED, notes/assumptions/5.md); TX_DATA gives none while TX_V is 0
(DEDUCED, notes/assumptions/10.md). -/
def State.outputs (s : State) : Outputs where
  txId := s.tx.map TxHead.id
  txDlc := s.tx.map TxHead.dlc
  txData := s.txData.map (underFlag s.txV)
  txV := s.txV
  hdrPrio := s.hdr.map Header.prio
  hdrCmd := s.hdr.map Header.cmd
  hdrStatus := s.hdr.map Header.status
  hdrAddr := s.hdr.map Header.addr
  hdrV := s.hdrV
  res := s.res
  resV := s.resV
  devIdentity := underFlag s.devV (s.dev.map Device.identity)
  devType := underFlag s.devV (s.dev.map Device.devType)
  devV := s.devV
  status := s.status

/-- A frame as the host transmits it (R27). -/
structure Frame where
  /-- The identifier, TX_ID. -/
  id : CanId
  /-- The length, TX_DLC. -/
  dlc : BitVec 4
  /-- The payload bytes TX_DATA[0] to TX_DATA[TX_DLC-1], in ascending index order (20_memory.md R52). -/
  bytes : List Byte
deriving DecidableEq, Repr

/-- The values of a list of registers, absent if one of them is unwritten. -/
def allValues {α : Type} : List (Reg α) → Option (List α)
  | [] => some []
  | .unwritten :: _ => none
  | .holds v :: rs => (allValues rs).map (v :: ·)

/-- The transmitted frame of R27: defined when TX_V = 1 and every byte below TX_DLC is written. No byte at or above
TX_DLC is part of it (70_reset_and_hazards.md R246). -/
def State.transmittedFrame (s : State) : Option Frame :=
  match s.tx with
  | .unwritten => none
  | .holds h =>
    (allValues ((indicesBelow h.dlc.toNat).map (fun k => s.txData[k]))).map
      (fun bytes => { id := h.id, dlc := h.dlc, bytes := bytes })

end Sys2Proof.Machine
end

