-- ==== Sys2Proof/Safety.lean ====
section
/-! DEFINITION. What the statements speak of: the invariants of reachable states (10_state.md R39 and what follows
from other rules), the configuration an operation needs, what a build writes, and which bus bits an operation reads.
Nothing here is part of the machine. -/

namespace Sys2Proof.Machine

/-! ### Invariants -/

/-- If TX_V = 1, then TX_DLC <= 8, TX_ID[28:27] = 0 and TX_ID[16] = 0 (R39). -/
def FrameInBounds (s : State) : Prop :=
  ∀ h, s.tx = .holds h → h.dlc.toNat ≤ 8 ∧ h.id.extractLsb' 27 2 = 0 ∧ h.id.extractLsb' 16 1 = 0

/-- If TX_V = 1, every byte below TX_DLC is written (R27). -/
def FrameWritten (s : State) : Prop :=
  ∀ h, s.tx = .holds h → ∀ k : Fin 8, k.val < h.dlc.toNat → ∃ v, s.txData[k] = .holds v

/-- If TX_V = 0, no TX_DATA byte is written (R32: an unwritten frame holds no byte). -/
def NoByteWithoutFrame (s : State) : Prop := s.tx = .unwritten → ∀ k : Fin 8, s.txData[k] = .unwritten

/-- If RES_V = 1, then RES[31:16] = 0 (R39). -/
def ResultIn16Bits (s : State) : Prop := ∀ v, s.res = .holds v → v.extractLsb' 16 16 = 0

/-- STATUS is never 5 or 6 (R39). -/
def StatusLegal (s : State) : Prop := s.status ≠ 5 ∧ s.status ≠ 6

/-- If DEV_V = 1, DEV_IDENTITY and DEV_TYPE are written (R30). -/
def DeviceWritten (s : State) : Prop := s.devV = 1 → ∃ d, s.dev = .holds d

/-- The kinds of frame the block builds: the priority parameter and the command code of each row of the template
table and of the bind request (30_encoding.md R75). -/
def builtKinds (p : Priorities) : List (BitVec 2 × Byte) :=
  [(p.bootloaderStart, 0x1B), (p.ping, 0x18), (p.systemGo, 0x00), (p.systemHold, 0x00), (p.systemStop, 0x00),
   (p.mfxDiscovery, 0x01), (p.mfxBind, 0x02), (p.locoSpeed, 0x04), (p.locoDir, 0x05), (p.locoFunc, 0x06),
   (p.system, 0x02)]

/-- If TX_V = 1, TX_ID is a request of a row of R75 with that row's configured priority (40_encoder.md R118). -/
def FrameOfConfiguredKind (s : State) : Prop :=
  ∀ h, s.tx = .holds h → ∃ k ∈ builtKinds Config.prio, ∃ a, h.id = packId k.1 k.2 requestBit a

/-- The registers of the block, without the model's own input queue. -/
def State.registers (s : State) : State := { s with issues := [] }

/-- STATUS is RESET only where no operation has completed since reset (60_exceptions.md R211), so every register is
as reset left it. -/
def ResetStatusMeansReset (s : State) : Prop := s.status = statusReset → s.registers = State.reset

/-- If TX_V = 1, a build has succeeded since reset, so NODE_ID and LEGACY are written (60_exceptions.md R217). -/
def BuiltOnlyConfigured (s : State) : Prop :=
  ∀ h, s.tx = .holds h → s.nodeIdV = 1 ∧ s.legacyV = 1

/-- The invariant of reachable states. The bounds that R39 gives HDR_* hold by their widths. -/
structure StateInv (s : State) : Prop where
  frameInBounds : FrameInBounds s
  frameWritten : FrameWritten s
  noByteWithoutFrame : NoByteWithoutFrame s
  resultIn16Bits : ResultIn16Bits s
  statusLegal : StatusLegal s
  deviceWritten : DeviceWritten s
  frameOfConfiguredKind : FrameOfConfiguredKind s
  resetStatusMeansReset : ResetStatusMeansReset s
  builtOnlyConfigured : BuiltOnlyConfigured s

/-! ### Configuration -/

/-- What a frame-building BUILD_* and NODE_HASH need (60_exceptions.md R217). -/
def Configured (s : State) : Prop :=
  s.nodeIdV = 1 ∧ s.legacyV = 1 ∧ (s.legacy = .holds 1 ∨ s.ctrV = 1)

/-- The operation is CFG_NODE_ID, CFG_MODE, CTR_WRITE or CTR_ADVANCE (43_control.md R190). -/
def isControl : Instr → Bool
  | .cfgNodeId | .cfgMode _ | .ctrWrite _ | .ctrAdvance => true
  | .hashDerive | .hashMix _ _ | .nodeHash
  | .buildBootloaderStart | .buildPing | .buildSystemGo | .buildSystemHold | .buildSystemStop
  | .buildMfxDiscovery | .buildMfxBind | .buildMfxVerify
  | .buildLocoSpeed _ | .buildLocoDir _ | .buildLocoFunc _ | .buildBind | .reservedBuild _
  | .parse | .classify | .extractDevice => false

/-- The operation writes RES: HASH_DERIVE, HASH_MIX, NODE_HASH or CLASSIFY (10_state.md R29). -/
def writesRes : Instr → Bool
  | .hashDerive | .hashMix _ _ | .nodeHash | .classify => true
  | .cfgNodeId | .cfgMode _ | .ctrWrite _ | .ctrAdvance
  | .buildBootloaderStart | .buildPing | .buildSystemGo | .buildSystemHold | .buildSystemStop
  | .buildMfxDiscovery | .buildMfxBind | .buildMfxVerify
  | .buildLocoSpeed _ | .buildLocoDir _ | .buildLocoFunc _ | .buildBind | .reservedBuild _
  | .parse | .extractDevice => false

/-- The priority parameter and command code of a frame-building operation (R75); none for every other operation, for
BUILD_MFX_VERIFY and for the reserved build codes, which build no frame (R110, R116). -/
def builtKind? (p : Priorities) : Instr → Option (BitVec 2 × Byte)
  | .buildBootloaderStart => some (p.bootloaderStart, 0x1B)
  | .buildPing => some (p.ping, 0x18)
  | .buildSystemGo => some (p.systemGo, 0x00)
  | .buildSystemHold => some (p.systemHold, 0x00)
  | .buildSystemStop => some (p.systemStop, 0x00)
  | .buildMfxDiscovery => some (p.mfxDiscovery, 0x01)
  | .buildMfxBind => some (p.mfxBind, 0x02)
  | .buildLocoSpeed _ => some (p.locoSpeed, 0x04)
  | .buildLocoDir _ => some (p.locoDir, 0x05)
  | .buildLocoFunc _ => some (p.locoFunc, 0x06)
  | .buildBind => some (p.system, 0x02)
  | .cfgNodeId | .cfgMode _ | .ctrWrite _ | .ctrAdvance
  | .hashDerive | .hashMix _ _ | .nodeHash | .buildMfxVerify | .reservedBuild _
  | .parse | .classify | .extractDevice => none

/-- The number N of a loco-control operation (40_encoder.md R111); 0 for every other operation. -/
def locoN : Instr → BitVec 3
  | .buildLocoSpeed n | .buildLocoDir n | .buildLocoFunc n => n
  | .cfgNodeId | .cfgMode _ | .ctrWrite _ | .ctrAdvance
  | .hashDerive | .hashMix _ _ | .nodeHash
  | .buildBootloaderStart | .buildPing | .buildSystemGo | .buildSystemHold | .buildSystemStop
  | .buildMfxDiscovery | .buildMfxBind | .buildMfxVerify | .buildBind | .reservedBuild _
  | .parse | .classify | .extractDevice => 0

/-! ### Results -/

/-- Operation `i` completes in state `s` with the results `t`: the next state is `t` with STATUS = OK. -/
def CompletesWith (i : Instr) (s t : State) : Prop := exec i s = .next { t with status := 0 }

/-- Operation `i` ends in state `s` with a STATUS code and writes nothing else (60_exceptions.md R212). -/
def EndsWithError (i : Instr) (s : State) (code : BitVec 3) : Prop := exec i s = .next { s with status := code }

/-- Operation `i` builds a frame in state `s`: TX_ID, TX_DLC, TX_V = 1, each byte that `named` names, every other
TX_DATA byte kept, STATUS = OK, and nothing else written (40_encoder.md R100, R102). -/
def BuildsFrame (i : Instr) (s : State) (id : CanId) (dlc : BitVec 4) (named : Fin 8 → Option Byte) : Prop :=
  ∃ d : Vector (Reg Byte) 8,
    (∀ k : Fin 8, d[k] = (match named k with
      | some b => .holds b
      | none => s.txData[k])) ∧
    exec i s = .next { s with tx := .holds { id := id, dlc := dlc }, txData := d, status := 0 }

/-- `n` steps, as `Host.Core.run` runs the machine. -/
def runSteps : Nat → State → Result
  | 0, s => .next s
  | n + 1, s =>
    match step s with
    | .next t => runSteps n t
    | .fault r => .fault r
    | .refused r => .refused r

/-- The bytes that a broadcast build names: 0x00 in bytes 0 to 3, and byte 4 (40_encoder.md R101). -/
def broadcastBytes (b4 : Byte) (k : Fin 8) : Option Byte :=
  if k.val < 4 then some 0x00 else if k.val = 4 then some b4 else none

/-- The bytes that a copying build names: opd[k] below `n` (R109, R111). -/
def bytesFromOpd (opd : Payload) (n : Nat) (k : Fin 8) : Option Byte := if k.val < n then some opd[k] else none

/-- The bytes that the bind request names: the identity, 0x00, and the local address (R115). -/
def bindBytes (opd : Payload) (address : Byte) (k : Fin 8) : Option Byte :=
  if k.val < 4 then some opd[k] else if k.val = 4 then some 0x00 else if k.val = 5 then some address else none

/-! ### What an operation reads of the buses -/

/-- The bus bits that the rule of operation `i` reads agree on two sets of buses (10_state.md R35). -/
def AgreeOnReadBits (i : Instr) (b c : Buses) : Prop :=
  match i with
  | .cfgNodeId | .hashDerive => b.opa = c.opa
  | .hashMix _ _ => b.opa.extractLsb' 0 16 = c.opa.extractLsb' 0 16
  | .parse => b.opa.extractLsb' 0 27 = c.opa.extractLsb' 0 27
  | .classify => b.opa.extractLsb' 16 9 = c.opa.extractLsb' 16 9 ∧ b.opl = c.opl
  | .extractDevice =>
    b.opa.extractLsb' 16 9 = c.opa.extractLsb' 16 9 ∧ b.opl = c.opl ∧
      (∀ k : Fin 8, k.val < 4 ∨ 6 ≤ k.val → b.opd[k] = c.opd[k])
  | .buildMfxBind => ∀ k : Fin 8, k.val < 6 → b.opd[k] = c.opd[k]
  | .buildLocoSpeed n | .buildLocoDir n | .buildLocoFunc n =>
    n.toNat ≤ 4 → ∀ k : Fin 8, k.val < 4 + n.toNat → b.opd[k] = c.opd[k]
  | .buildBind => (∀ k : Fin 8, k.val < 4 → b.opd[k] = c.opd[k]) ∧ b.opb = c.opb
  | .cfgMode _ | .ctrWrite _ | .ctrAdvance | .nodeHash
  | .buildBootloaderStart | .buildPing | .buildSystemGo | .buildSystemHold | .buildSystemStop
  | .buildMfxDiscovery | .buildMfxVerify | .reservedBuild _ => True

/-! ### Kinds of operation word -/

/-- The word decodes to an operation that is no reserved build code (30_encoding.md R79). -/
def isOperationWord (w : OpWord) : Bool :=
  match decode w with
  | .op (.reservedBuild _) => false
  | .op _ => true
  | .illegalOp _ => false

/-- The word gives UNKNOWN_COMMAND in R79: a reserved build code. -/
def isReservedBuildWord (w : OpWord) : Bool :=
  match decode w with
  | .op (.reservedBuild _) => true
  | .op _ => false
  | .illegalOp _ => false

/-- The word is illegal (R79). -/
def isIllegalWord (w : OpWord) : Bool :=
  match decode w with
  | .op _ => false
  | .illegalOp _ => true

/-- Of the words with operation code `opc`, those that set no field beyond the ones the operation uses are the
operation `op arg lg`, and all the others are illegal (R76 to R79). -/
def WordsAre (opc : Byte) (usesArg usesLg : Bool) (op : BitVec 3 → BitVec 1 → Instr) : Prop :=
  ∀ w : OpWord, wordOpc w = opc →
    if wordRsv w = 0 ∧ (usesArg = true ∨ wordArg w = 0) ∧ (usesLg = true ∨ wordLg w = 0) then
      decode w = .op (op (wordArg w) (wordLg w))
    else isIllegalWord w = true

/-- The operation codes of the map that use neither ARG nor LG (R77). -/
def opcsWithoutFields : List Byte :=
  [0x01, 0x04, 0x10, 0x12, 0x20, 0x21, 0x22, 0x23, 0x24, 0x25, 0x26, 0x27, 0x2B, 0x2C, 0x2D, 0x2E, 0x2F,
   0x40, 0x41, 0x42]

/-- The operation codes of the map that use ARG and not LG (R77). -/
def opcsWithArg : List Byte := [0x03, 0x28, 0x29, 0x2A]

/-- The operation code of the map that uses LG and not ARG: CFG_MODE (R77). -/
def opcsWithLg : List Byte := [0x02]

/-- The operation code of the map that uses both: HASH_MIX (R77). -/
def opcsWithBoth : List Byte := [0x11]

end Sys2Proof.Machine
end

