-- ==== Sys2Proof/Certificates/Slice0/Obligations.lean ====
section
/-! DEFINITION. The statements for the provers. -/

open Sys2Proof Sys2Proof.Machine

/-! ### Reset -/

/-- R38: every register is unwritten after reset, every valid flag is 0, and STATUS is 7. -/
def Obligations.ResetLeavesEveryRegisterUnwritten : Prop :=
  State.reset.nodeId = .unwritten ∧ State.reset.nodeIdV = 0 ∧
  State.reset.legacy = .unwritten ∧ State.reset.legacyV = 0 ∧
  State.reset.ctr = .unwritten ∧ State.reset.ctrV = 0 ∧
  State.reset.tx = .unwritten ∧ (∀ k : Fin 8, State.reset.txData[k] = .unwritten) ∧ State.reset.txV = 0 ∧
  State.reset.hdr = .unwritten ∧ State.reset.hdrV = 0 ∧
  State.reset.res = .unwritten ∧ State.reset.resV = 0 ∧
  State.reset.dev = .unwritten ∧ State.reset.devV = 0 ∧
  State.reset.status = 7

/-- R240: the reset event puts every register into its reset value; no other event clears a valid flag, but for
DEV_V, which EXTRACT_DEVICE may clear. -/
def Obligations.OnlyResetClearsValidFlags : Prop :=
  (∀ (s : State) (rest : List HostEvent), s.issues = .reset :: rest →
    ∃ t, step s = .next t ∧ t.registers = State.reset ∧ t.status = 7 ∧
      t.nodeIdV = 0 ∧ t.legacyV = 0 ∧ t.ctrV = 0 ∧ t.txV = 0 ∧ t.hdrV = 0 ∧ t.resV = 0 ∧ t.devV = 0) ∧
  (∀ s t : State, (∀ rest, s.issues ≠ .reset :: rest) → step s = .next t →
    (s.nodeIdV = 1 → t.nodeIdV = 1) ∧ (s.legacyV = 1 → t.legacyV = 1) ∧ (s.ctrV = 1 → t.ctrV = 1) ∧
    (s.txV = 1 → t.txV = 1) ∧ (s.hdrV = 1 → t.hdrV = 1) ∧ (s.resV = 1 → t.resV = 1) ∧
    (s.devV = 1 → t.devV ≠ 1 →
      ∃ w b rest, s.issues = .operation w b :: rest ∧ decode w = .op .extractDevice))

/-- R241: which operations succeed at once after reset, and which report UNCONFIGURED at once, whatever the buses
carry (CLASSIFY and EXTRACT_DEVICE need a received length of at most 8, R145, R147; BUILD_LOCO_* with N above 4
reports BAD_LENGTH first, R218). -/
def Obligations.OperationsRightAfterReset : Prop :=
  ∀ s : State, s.registers = State.reset →
    (∀ i, i = .parse ∨ i = .hashDerive ∨ i = .cfgNodeId ∨ (∃ c l, i = .hashMix c l) ∨ (∃ l, i = .cfgMode l) ∨
        (∃ c, i = .ctrWrite c) ∨ ((i = .classify ∨ i = .extractDevice) ∧ s.buses.opl.toNat ≤ 8) →
      ∃ t, exec i s = .next t ∧ t.status = 0) ∧
    (∀ i, i = .nodeHash ∨ i = .ctrAdvance ∨ ((builtKind? Config.prio i).isSome = true ∧ (locoN i).toNat ≤ 4) →
      EndsWithError i s 4)

/-! ### The operation port -/

/-- R34: a step runs the operation that the word at the port decodes to, on the buses presented with it, and then the
next thing the host presents is at the port. -/
def Obligations.StepRunsTheDecodedOperation : Prop :=
  ∀ (s : State) (w : OpWord) (b : Buses) (rest : List HostEvent) (i : Instr),
    s.issues = .operation w b :: rest → decode w = .op i →
      wellFormed i = true ∧ s.buses = b ∧ ∃ t, exec i s = .next t ∧ step s = .next { t with issues := rest }

/-- The model's choice (notes/assumptions/2.md): where the host presents nothing, a step changes nothing. -/
def Obligations.IdleStepChangesNothing : Prop := ∀ s : State, s.issues = [] → step s = .next s

/-- R214: the illegal words are exactly those with one of the four causes, and an illegal word writes STATUS = 2 and
nothing else. -/
def Obligations.IllegalWordsRaiseIllegalOp : Prop :=
  (∀ w : OpWord, isIllegalWord w = true ↔
    (wordRsv w ≠ 0 ∨
      wordOpc w ∉ opcsWithoutFields ++ opcsWithArg ++ opcsWithLg ++ opcsWithBoth ∨
      (wordArg w ≠ 0 ∧ wordOpc w ∈ opcsWithoutFields ++ opcsWithLg) ∨
      (wordLg w ≠ 0 ∧ wordOpc w ∈ opcsWithoutFields ++ opcsWithArg))) ∧
  (∀ (s : State) (w : OpWord) (b : Buses) (rest : List HostEvent),
    s.issues = .operation w b :: rest → isIllegalWord w = true →
      step s = .next { s with status := 2, issues := rest })

/-- R35: an operation ignores every bus, and every bit of a bus, that its rule does not read. -/
def Obligations.UnreadBusBitsDoNotMatter : Prop :=
  ∀ (s : State) (w : OpWord) (i : Instr) (b c : Buses) (rest : List HostEvent),
    decode w = .op i → AgreeOnReadBits i b c →
      step { s with issues := .operation w b :: rest } = step { s with issues := .operation w c :: rest }

/-! ### Encoding -/

/-- No bit of an encoding is dropped: decoding the word of a well-formed operation gives it back. -/
def Obligations.DecodeOfEncodeIsTheOperation : Prop :=
  ∀ i : Instr, wellFormed i = true → decode (encode i) = .op i

/-- Each operation word has one meaning: what it decodes to is well-formed and encodes back to it. -/
def Obligations.DecodedWordsEncodeBack : Prop :=
  ∀ (w : OpWord) (i : Instr), decode w = .op i → wellFormed i = true ∧ encode i = w

/-- R79: of the 65536 words, 66 decode to an operation, 4 give UNKNOWN_COMMAND and 65466 are illegal. -/
def Obligations.OperationWordCounts : Prop :=
  (List.range 65536).countP (fun n => isOperationWord (BitVec.ofNat 16 n)) = 66 ∧
  (List.range 65536).countP (fun n => isReservedBuildWord (BitVec.ofNat 16 n)) = 4 ∧
  (List.range 65536).countP (fun n => isIllegalWord (BitVec.ofNat 16 n)) = 65466

/-- Words written out from R76 and R77 decode to the operation they stand for (one or more of each family). -/
def Obligations.SampleWordsDecode : Prop :=
  decode 0b0000_1_000_00000010#16 = .op (.cfgMode 1) ∧
  decode 0b0000_0_101_00000011#16 = .op (.ctrWrite 5) ∧
  decode 0b0000_1_011_00010001#16 = .op (.hashMix 3 1) ∧
  decode 0b0000_0_000_00100001#16 = .op .buildPing ∧
  decode 0b0000_0_111_00101000#16 = .op (.buildLocoSpeed 7) ∧
  decode 0b0000_0_000_00101101#16 = .op (.reservedBuild 0x2D) ∧
  decode 0b0000_0_000_01000010#16 = .op .extractDevice

/-! ### Control -/

/-- R191: every 32-bit value is accepted and nothing else is written but STATUS. -/
def Obligations.CfgNodeIdWritesTheNodeIdentity : Prop :=
  decode 0x0001 = .op .cfgNodeId ∧
  WordsAre 0x01 false false (fun _ _ => .cfgNodeId) ∧
  ∀ s : State, CompletesWith .cfgNodeId s { s with nodeId := .holds s.buses.opa }

/-- R192: CTR and every other register are kept. -/
def Obligations.CfgModeSelectsTheMixing : Prop :=
  decode 0x0002 = .op (.cfgMode 0) ∧ decode 0x0802 = .op (.cfgMode 1) ∧
  WordsAre 0x02 false true (fun _ lg => .cfgMode lg) ∧
  ∀ (s : State) (lg : BitVec 1), CompletesWith (.cfgMode lg) s { s with legacy := .holds lg }

/-- R193: all eight values are legal, in either mode, and nothing else is written but STATUS. -/
def Obligations.CtrWriteSetsTheCounter : Prop :=
  (∀ c : BitVec 3, decode (0x0003#16 ||| (c.setWidth 16 <<< 8)) = .op (.ctrWrite c)) ∧
  WordsAre 0x03 true false (fun c _ => .ctrWrite c) ∧
  ∀ (s : State) (c : BitVec 3), CompletesWith (.ctrWrite c) s { s with ctr := .holds c }

/-- R194: CTR becomes (CTR + 1) mod 8; with CTR_V = 0 the operation ends with UNCONFIGURED, in either mode. -/
def Obligations.CtrAdvanceAddsOneModulo8 : Prop :=
  decode 0x0004 = .op .ctrAdvance ∧
  WordsAre 0x04 false false (fun _ _ => .ctrAdvance) ∧
  ∀ s : State,
    (∀ c, s.ctr = .holds c →
      CompletesWith .ctrAdvance s { s with ctr := .holds (BitVec.ofNat 3 ((c.toNat + 1) % 8)) }) ∧
    (s.ctrV = 0 → EndsWithError .ctrAdvance s 4)

/-- R194: n advances add n modulo 8, so eight of them return CTR to its starting value. -/
def Obligations.AdvancesAddUpModulo8 : Prop :=
  (∀ (n : Nat) (s : State) (c : BitVec 3) (b : Buses) (rest : List HostEvent),
    s.ctr = .holds c → s.issues = List.replicate (n + 1) (.operation 0x0004 b) ++ rest →
      runSteps (n + 1) s =
        .next { s with ctr := .holds (BitVec.ofNat 3 (c.toNat + (n + 1))), status := 0, issues := rest }) ∧
  (∀ (s : State) (c : BitVec 3) (b : Buses) (rest : List HostEvent),
    s.ctr = .holds c → s.issues = List.replicate 8 (.operation 0x0004 b) ++ rest →
      runSteps 8 s = .next { s with status := 0, issues := rest })

/-- R190: only CFG_NODE_ID, CFG_MODE, CTR_WRITE and CTR_ADVANCE write NODE_ID, LEGACY and CTR, and these four write
no output register but STATUS. -/
def Obligations.OnlyControlOperationsWriteConfiguration : Prop :=
  ∀ (i : Instr) (s t : State), exec i s = .next t →
    (isControl i = false → t.nodeId = s.nodeId ∧ t.legacy = s.legacy ∧ t.ctr = s.ctr) ∧
    (isControl i = true →
      t = { s with nodeId := t.nodeId, legacy := t.legacy, ctr := t.ctr, status := t.status } ∧
      t.outputs = { s.outputs with status := t.status })

/-- R242: CFG_NODE_ID, CFG_MODE and CTR_WRITE, issued in any order, configure the block; then NODE_HASH and the
builds have their node hash. -/
def Obligations.BootOrderDoesNotMatter : Prop :=
  ∀ (s : State) (b1 b2 b3 : Buses) (lg : BitVec 1) (c : BitVec 3) (boot rest : List HostEvent),
    boot.Perm [.operation (encode .cfgNodeId) b1, .operation (encode (.cfgMode lg)) b2,
      .operation (encode (.ctrWrite c)) b3] →
    s.issues = boot ++ rest →
      runSteps 3 s =
        .next { s with nodeId := .holds b1.opa, legacy := .holds lg, ctr := .holds c, status := 0, issues := rest } ∧
      Configured { s with nodeId := .holds b1.opa, legacy := .holds lg, ctr := .holds c, status := 0, issues := rest }

/-! ### Identity hash -/

/-- R170: each bit of the hash is the exclusive or of the bits 16 apart, and the source's vector holds. -/
def Obligations.DeriveHashXorsTheHalves : Prop :=
  (∀ (x : BitVec 32) (k : Nat), k < 16 →
    (deriveHash x).getLsbD k = (x.getLsbD (16 + k) ^^ x.getLsbD k)) ∧
  deriveHash 0x4711EEF0 = 0xA9E1

/-- R171, R172: the formulas of both modes and their field layouts. -/
def Obligations.MixCounterReplacesBits9To7 : Prop :=
  ∀ (h : BitVec 16) (c : BitVec 3),
    mixCounter h c 0 = (h &&& 0xFC7F) ||| (c.setWidth 16 <<< 7) ∧
    mixCounter h c 0 = h.extractLsb' 10 6 ++ c ++ h.extractLsb' 0 7 ∧
    mixCounter h c 1 = (h &&& 0xFF7F) ||| 0x0300 ∧
    mixCounter h c 1 = h.extractLsb' 10 6 ++ 0b110#3 ++ h.extractLsb' 0 7

/-- R177: the seven laws of the hash functions. -/
def Obligations.HashLaws : Prop :=
  (∀ (h : BitVec 16) (c : BitVec 3) (m : BitVec 1),
    (mixCounter h c m).extractLsb' 10 6 = h.extractLsb' 10 6 ∧
    (mixCounter h c m).extractLsb' 0 7 = h.extractLsb' 0 7) ∧
  (∀ (h : BitVec 16) (c : BitVec 3), (mixCounter h c 0).extractLsb' 7 3 = c) ∧
  (∀ (h : BitVec 16) (c : BitVec 3), (mixCounter h c 1).extractLsb' 7 3 = 0b110) ∧
  (∀ (h : BitVec 16) (c : BitVec 3), mixCounter h c 1 = mixCounter h 6 0) ∧
  (∀ (h : BitVec 16) (c : BitVec 3) (m : BitVec 1), mixCounter (mixCounter h c m) c m = mixCounter h c m) ∧
  (∀ a b : BitVec 16, deriveHash (a ++ b) = deriveHash (b ++ a)) ∧
  (∀ (x : BitVec 32) (c d : BitVec 3), c ≠ d → mixCounter (deriveHash x) c 0 ≠ mixCounter (deriveHash x) d 0)

/-- R173: the node hash of the block's own state. -/
def Obligations.NodeHashOfTheConfiguration : Prop :=
  ∀ s : State,
    (∀ id, s.nodeId = .holds id → s.legacy = .holds 1 →
      nodeHash s = .ok (mixCounter (deriveHash id) 0 1)) ∧
    (∀ id c, s.nodeId = .holds id → s.legacy = .holds 0 → s.ctr = .holds c →
      nodeHash s = .ok (mixCounter (deriveHash id) c 0)) ∧
    (Configured s → ∃ h, nodeHash s = .ok h) ∧
    (¬ Configured s → nodeHash s = .error .unconfigured)

/-- R174: the hash of opa, zero-extended, in RES; no configuration is needed. -/
def Obligations.HashDeriveWritesTheHash : Prop :=
  decode 0x0010 = .op .hashDerive ∧
  WordsAre 0x10 false false (fun _ _ => .hashDerive) ∧
  ∀ s : State, CompletesWith .hashDerive s { s with res := .holds ((deriveHash s.buses.opa).setWidth 32) }

/-- R175: the hash is opa[15:0], the counter and the mode come from the word. -/
def Obligations.HashMixWritesTheMixedHash : Prop :=
  (∀ (c : BitVec 3) (lg : BitVec 1),
    decode (0x0011#16 ||| (c.setWidth 16 <<< 8) ||| (lg.setWidth 16 <<< 11)) = .op (.hashMix c lg)) ∧
  WordsAre 0x11 true true (fun c lg => .hashMix c lg) ∧
  ∀ (s : State) (c : BitVec 3) (lg : BitVec 1),
    CompletesWith (.hashMix c lg) s
      { s with res := .holds ((mixCounter (s.buses.opa.extractLsb' 0 16) c lg).setWidth 32) }

/-- R176: NODE_HASH writes the node hash of the block's state, or ends with UNCONFIGURED. -/
def Obligations.NodeHashWritesTheNodeHash : Prop :=
  decode 0x0012 = .op .nodeHash ∧
  WordsAre 0x12 false false (fun _ _ => .nodeHash) ∧
  ∀ s : State,
    (Configured s → ∃ h, nodeHash s = .ok h ∧
      CompletesWith .nodeHash s { s with res := .holds (h.setWidth 32) }) ∧
    (¬ Configured s → EndsWithError .nodeHash s 4)

/-! ### Identifier -/

/-- R71: the packed identifier is the concatenation of its fields, and `|` and `+` agree. -/
def Obligations.PackedIdentifierLayout : Prop :=
  ∀ (p : BitVec 2) (c : Byte) (s : BitVec 1) (a : BitVec 16),
    packId p c s a = 0b00#2 ++ p ++ c ++ s ++ a ∧
    packId p c s a = (p.setWidth 29 <<< 25) ||| (c.setWidth 29 <<< 17) ||| (s.setWidth 29 <<< 16) ||| a.setWidth 29 ∧
    (packId p c s a).toNat = p.toNat * 2 ^ 25 + c.toNat * 2 ^ 17 + s.toNat * 2 ^ 16 + a.toNat

/-- R72, R73: unpacking reads the four fields, undoes packing, and does not read bits 31:27, which packing leaves 0
within the identifier. -/
def Obligations.UnpackingUndoesPacking : Prop :=
  (∀ x : RawId, unpackId x =
    { prio := x.extractLsb' 25 2, cmd := x.extractLsb' 17 8, status := x.extractLsb' 16 1, addr := x.extractLsb' 0 16 }) ∧
  (∀ (p : BitVec 2) (c : Byte) (s : BitVec 1) (a : BitVec 16),
    unpackId ((packId p c s a).setWidth 32) = { prio := p, cmd := c, status := s, addr := a } ∧
    (packId p c s a).extractLsb' 27 2 = 0) ∧
  (∀ x y : RawId, x.extractLsb' 0 27 = y.extractLsb' 0 27 → unpackId x = unpackId y)

/-! ### Encoder -/

/-- R103, R105, R106, R107: the four broadcast builds write their frame where the block is configured, and end with
UNCONFIGURED where it is not. -/
def Obligations.BroadcastBuildsWriteTheirFrames : Prop :=
  decode 0x0020 = .op .buildBootloaderStart ∧ decode 0x0022 = .op .buildSystemGo ∧
  decode 0x0023 = .op .buildSystemHold ∧ decode 0x0024 = .op .buildSystemStop ∧
  WordsAre 0x20 false false (fun _ _ => .buildBootloaderStart) ∧ WordsAre 0x22 false false (fun _ _ => .buildSystemGo) ∧
  WordsAre 0x23 false false (fun _ _ => .buildSystemHold) ∧ WordsAre 0x24 false false (fun _ _ => .buildSystemStop) ∧
  ∀ s : State,
    (Configured s → ∃ h, nodeHash s = .ok h ∧
      BuildsFrame .buildBootloaderStart s (packId Config.prio.bootloaderStart 0x1B 0 h) 5 (broadcastBytes 0x11) ∧
      BuildsFrame .buildSystemGo s (packId Config.prio.systemGo 0x00 0 h) 5 (broadcastBytes 0x01) ∧
      BuildsFrame .buildSystemHold s (packId Config.prio.systemHold 0x00 0 h) 5 (broadcastBytes 0x02) ∧
      BuildsFrame .buildSystemStop s (packId Config.prio.systemStop 0x00 0 h) 5 (broadcastBytes 0x00)) ∧
    (¬ Configured s →
      EndsWithError .buildBootloaderStart s 4 ∧ EndsWithError .buildSystemGo s 4 ∧
      EndsWithError .buildSystemHold s 4 ∧ EndsWithError .buildSystemStop s 4)

/-- R104, R108: Ping names no byte, MfxDiscovery names byte 0; neither is broadcast. -/
def Obligations.PingAndDiscoveryBuildsWriteTheirFrames : Prop :=
  decode 0x0021 = .op .buildPing ∧ decode 0x0025 = .op .buildMfxDiscovery ∧
  WordsAre 0x21 false false (fun _ _ => .buildPing) ∧ WordsAre 0x25 false false (fun _ _ => .buildMfxDiscovery) ∧
  ∀ s : State,
    (Configured s → ∃ h, nodeHash s = .ok h ∧
      BuildsFrame .buildPing s (packId Config.prio.ping 0x18 0 h) 0 (fun _ => none) ∧
      BuildsFrame .buildMfxDiscovery s (packId Config.prio.mfxDiscovery 0x01 0 h) 1
        (fun k => if k.val = 0 then some 0x20 else none)) ∧
    (¬ Configured s → EndsWithError .buildPing s 4 ∧ EndsWithError .buildMfxDiscovery s 4)

/-- R109, R115: the two builds of an MfxBind frame; they differ in the priority parameter and in bytes 4 and 5. -/
def Obligations.BindBuildsWriteTheirFrames : Prop :=
  decode 0x0026 = .op .buildMfxBind ∧ decode 0x002B = .op .buildBind ∧
  WordsAre 0x26 false false (fun _ _ => .buildMfxBind) ∧ WordsAre 0x2B false false (fun _ _ => .buildBind) ∧
  ∀ s : State,
    (Configured s → ∃ h, nodeHash s = .ok h ∧
      BuildsFrame .buildMfxBind s (packId Config.prio.mfxBind 0x02 0 h) 6 (bytesFromOpd s.buses.opd 6) ∧
      BuildsFrame .buildBind s (packId Config.prio.system 0x02 0 h) 6 (bindBytes s.buses.opd s.buses.opb)) ∧
    (¬ Configured s → EndsWithError .buildMfxBind s 4 ∧ EndsWithError .buildBind s 4)

/-- R111 to R114: the loco-control builds copy 4 + N bytes of opd; N above 4 ends with BAD_LENGTH before anything
else is checked. -/
def Obligations.LocoBuildsWriteTheirFrames : Prop :=
  (∀ n : BitVec 3,
    decode (0x0028#16 ||| (n.setWidth 16 <<< 8)) = .op (.buildLocoSpeed n) ∧
    decode (0x0029#16 ||| (n.setWidth 16 <<< 8)) = .op (.buildLocoDir n) ∧
    decode (0x002A#16 ||| (n.setWidth 16 <<< 8)) = .op (.buildLocoFunc n)) ∧
  WordsAre 0x28 true false (fun n _ => .buildLocoSpeed n) ∧ WordsAre 0x29 true false (fun n _ => .buildLocoDir n) ∧
  WordsAre 0x2A true false (fun n _ => .buildLocoFunc n) ∧
  ∀ (s : State) (n : BitVec 3),
    (n.toNat ≤ 4 → Configured s → ∃ h, nodeHash s = .ok h ∧
      BuildsFrame (.buildLocoSpeed n) s (packId Config.prio.locoSpeed 0x04 0 h) (BitVec.ofNat 4 (4 + n.toNat))
        (bytesFromOpd s.buses.opd (4 + n.toNat)) ∧
      BuildsFrame (.buildLocoDir n) s (packId Config.prio.locoDir 0x05 0 h) (BitVec.ofNat 4 (4 + n.toNat))
        (bytesFromOpd s.buses.opd (4 + n.toNat)) ∧
      BuildsFrame (.buildLocoFunc n) s (packId Config.prio.locoFunc 0x06 0 h) (BitVec.ofNat 4 (4 + n.toNat))
        (bytesFromOpd s.buses.opd (4 + n.toNat))) ∧
    (n.toNat ≤ 4 → ¬ Configured s →
      EndsWithError (.buildLocoSpeed n) s 4 ∧ EndsWithError (.buildLocoDir n) s 4 ∧
      EndsWithError (.buildLocoFunc n) s 4) ∧
    (4 < n.toNat →
      EndsWithError (.buildLocoSpeed n) s 3 ∧ EndsWithError (.buildLocoDir n) s 3 ∧
      EndsWithError (.buildLocoFunc n) s 3)

/-- R110, R116: BUILD_MFX_VERIFY and the reserved build codes raise UNKNOWN_COMMAND in every state and write nothing
else. -/
def Obligations.CommandsWithoutTemplateRaiseUnknownCommand : Prop :=
  decode 0x0027 = .op .buildMfxVerify ∧
  decode 0x002C = .op (.reservedBuild 0x2C) ∧ decode 0x002D = .op (.reservedBuild 0x2D) ∧
  decode 0x002E = .op (.reservedBuild 0x2E) ∧ decode 0x002F = .op (.reservedBuild 0x2F) ∧
  WordsAre 0x27 false false (fun _ _ => .buildMfxVerify) ∧
  (∀ opc : Byte, 0x2C ≤ opc → opc ≤ 0x2F → WordsAre opc false false (fun _ _ => .reservedBuild opc)) ∧
  ∀ s : State, EndsWithError .buildMfxVerify s 1 ∧ ∀ opc, EndsWithError (.reservedBuild opc) s 1

/-- R117: parsing the identifier of a successful build recovers its priority, code, the request status and the node
hash of the state the build saw. -/
def Obligations.BuiltIdentifiersParseBack : Prop :=
  ∀ (i : Instr) (s t : State) (p : BitVec 2) (c : Byte),
    builtKind? Config.prio i = some (p, c) → exec i s = .next t → t.status = 0 →
      ∃ head h, nodeHash s = .ok h ∧ t.tx = .holds head ∧
        unpackId (head.id.setWidth 32) = { prio := p, cmd := c, status := 0, addr := h } ∧
        (∀ u : State, u.buses.opa = head.id.setWidth 32 →
          CompletesWith .parse u { u with hdr := .holds { prio := p, cmd := c, status := 0, addr := h } })

/-- R118: an operation that changes TX_ID, or builds successfully, leaves a request of a template row with its configured priority, and bits
28:27 are 0. -/
def Obligations.OnlyConfiguredRequestsAreBuilt : Prop :=
  ∀ (i : Instr) (s t : State) (h : TxHead), exec i s = .next t → t.tx = .holds h →
    t.tx ≠ s.tx ∨ ((builtKind? Config.prio i).isSome = true ∧ t.status = 0) →
    h.id.extractLsb' 16 1 = 0 ∧ h.id.extractLsb' 27 2 = 0 ∧
    ∃ k, builtKind? Config.prio i = some k ∧ h.id.extractLsb' 25 2 = k.1 ∧ h.id.extractLsb' 17 8 = k.2

/-- R102, R27: no operation changes a TX_DATA byte at or above the TX_DLC it leaves, and a successful build leaves
every byte below it written. -/
def Obligations.BytesAtOrAboveTheLengthAreKept : Prop :=
  ∀ (i : Instr) (s t : State), exec i s = .next t →
    (∀ k : Fin 8, (∀ h, t.tx = .holds h → h.dlc.toNat ≤ k.val) → t.txData[k] = s.txData[k]) ∧
    ((builtKind? Config.prio i).isSome = true → t.status = 0 →
      ∃ h, t.tx = .holds h ∧ h.dlc.toNat ≤ 8 ∧ ∀ k : Fin 8, k.val < h.dlc.toNat → ∃ v, t.txData[k] = .holds v)

/-- R27: where TX_V = 1 in a state that meets the invariant, the transmitted frame is defined, has TX_DLC bytes, and
shows the bytes below TX_DLC; two states that agree on TX_ID, TX_DLC and those bytes transmit the same frame. -/
def Obligations.TransmittedFrameIsTheBytesBelowTheLength : Prop :=
  (∀ (s : State) (h : TxHead), StateInv s → s.tx = .holds h →
    ∃ f, s.transmittedFrame = some f ∧ f.id = h.id ∧ f.dlc = h.dlc ∧ f.bytes.length = h.dlc.toNat ∧
      ∀ k : Fin 8, k.val < h.dlc.toNat → s.txData[k] = .holds (f.bytes.getD k.val 0)) ∧
  (∀ s : State, s.txV = 0 → s.transmittedFrame = none) ∧
  (∀ (s t : State) (h : TxHead), s.tx = .holds h → t.tx = .holds h →
    (∀ k : Fin 8, k.val < h.dlc.toNat → s.txData[k] = t.txData[k]) → s.transmittedFrame = t.transmittedFrame)

/-! ### Decoder -/

/-- R141, R142: PARSE splits opa into the header fields; the command is passed through whatever it is. -/
def Obligations.ParseSplitsTheIdentifier : Prop :=
  decode 0x0040 = .op .parse ∧
  WordsAre 0x40 false false (fun _ _ => .parse) ∧
  ∀ s : State, CompletesWith .parse s
    { s with hdr := .holds ⟨s.buses.opa.extractLsb' 25 2, s.buses.opa.extractLsb' 17 8,
      s.buses.opa.extractLsb' 16 1, s.buses.opa.extractLsb' 0 16⟩ }

/-- R144, R143: the class of every (command, status, length); codes 11 to 15 are never produced. -/
def Obligations.ClassOfEveryFrame : Prop :=
  ∀ (x : RawId) (len : BitVec 4), len.toNat ≤ 8 →
    (x.extractLsb' 17 8 = 0x18 → x.extractLsb' 16 1 = 0 → classifyFrame x len = 1) ∧
    (x.extractLsb' 17 8 = 0x18 → x.extractLsb' 16 1 = 1 → len.toNat = 8 → classifyFrame x len = 2) ∧
    (x.extractLsb' 17 8 = 0x18 → x.extractLsb' 16 1 = 1 → len.toNat ≠ 8 → classifyFrame x len = 3) ∧
    (x.extractLsb' 17 8 = 0x01 → x.extractLsb' 16 1 = 0 → classifyFrame x len = 4) ∧
    (x.extractLsb' 17 8 = 0x01 → x.extractLsb' 16 1 = 1 → len.toNat = 0 → classifyFrame x len = 5) ∧
    (x.extractLsb' 17 8 = 0x01 → x.extractLsb' 16 1 = 1 → len.toNat = 5 → classifyFrame x len = 6) ∧
    (x.extractLsb' 17 8 = 0x01 → x.extractLsb' 16 1 = 1 → 7 ≤ len.toNat → classifyFrame x len = 7) ∧
    (x.extractLsb' 17 8 = 0x01 → x.extractLsb' 16 1 = 1 → (1 ≤ len.toNat ∧ len.toNat ≤ 4) ∨ len.toNat = 6 →
      classifyFrame x len = 8) ∧
    (x.extractLsb' 17 8 = 0x02 → x.extractLsb' 16 1 = 0 → classifyFrame x len = 9) ∧
    (x.extractLsb' 17 8 = 0x02 → x.extractLsb' 16 1 = 1 → classifyFrame x len = 10) ∧
    (x.extractLsb' 17 8 ≠ 0x18 → x.extractLsb' 17 8 ≠ 0x01 → x.extractLsb' 17 8 ≠ 0x02 → classifyFrame x len = 0) ∧
    (classifyFrame x len).toNat ≤ 10

/-- R145: the class code, zero-extended, in RES; a length of 9 to 15 ends with BAD_LENGTH. -/
def Obligations.ClassifyWritesTheClass : Prop :=
  decode 0x0041 = .op .classify ∧
  WordsAre 0x41 false false (fun _ _ => .classify) ∧
  ∀ s : State,
    (s.buses.opl.toNat ≤ 8 →
      CompletesWith .classify s
        { s with res := .holds ((classifyFrame s.buses.opa s.buses.opl).setWidth 32) }) ∧
    (8 < s.buses.opl.toNat → EndsWithError .classify s 3)

/-- R147, R146: the Device of a Ping response of length 8, big-endian; on any other frame DEV_V is cleared and the
fields are kept. -/
def Obligations.ExtractDeviceReadsThePingResponse : Prop :=
  decode 0x0042 = .op .extractDevice ∧
  WordsAre 0x42 false false (fun _ _ => .extractDevice) ∧
  ∀ s : State,
    (s.buses.opl.toNat = 8 → s.buses.opa.extractLsb' 17 8 = 0x18 → s.buses.opa.extractLsb' 16 1 = 1 →
      ∃ d : Device,
        d.identity.toNat = s.buses.opd[0].toNat * 2 ^ 24 + s.buses.opd[1].toNat * 2 ^ 16 +
          s.buses.opd[2].toNat * 2 ^ 8 + s.buses.opd[3].toNat ∧
        d.devType.toNat = s.buses.opd[6].toNat * 2 ^ 8 + s.buses.opd[7].toNat ∧
        CompletesWith .extractDevice s { s with dev := .holds d, devV := 1 }) ∧
    (s.buses.opl.toNat ≤ 8 →
      ¬ (s.buses.opl.toNat = 8 ∧ s.buses.opa.extractLsb' 17 8 = 0x18 ∧ s.buses.opa.extractLsb' 16 1 = 1) →
      CompletesWith .extractDevice s { s with devV := 0 }) ∧
    (8 < s.buses.opl.toNat → EndsWithError .extractDevice s 3)

/-- R140: no decoder operation reads NODE_ID, LEGACY or CTR, and none raises UNCONFIGURED. -/
def Obligations.DecodersNeedNoConfiguration : Prop :=
  ∀ (i : Instr) (s t : State) (n : Reg (BitVec 32)) (l : Reg (BitVec 1)) (c : Reg (BitVec 3)),
    i = .parse ∨ i = .classify ∨ i = .extractDevice → exec i s = .next t →
      t.status ≠ 4 ∧
      exec i { s with nodeId := n, legacy := l, ctr := c } = .next { t with nodeId := n, legacy := l, ctr := c }

/-! ### Errors -/

/-- R212, R213: an operation that leaves a STATUS other than OK writes nothing else, and OK is STATUS 0. -/
def Obligations.FailedOperationsWriteOnlyStatus : Prop :=
  ∀ (i : Instr) (s t : State), exec i s = .next t → t.status ≠ 0 → t = { s with status := t.status }

/-- R215 to R217 with the order of R218: exactly when an operation ends with which error; otherwise it ends with
STATUS = OK (R213). -/
def Obligations.EachErrorHasExactlyItsCauses : Prop :=
  ∀ (i : Instr) (s : State), ∃ t, exec i s = .next t ∧
    (t.status = 1 ↔ i = .buildMfxVerify ∨ ∃ opc, i = .reservedBuild opc) ∧
    (t.status = 3 ↔ 4 < (locoN i).toNat ∨ ((i = .classify ∨ i = .extractDevice) ∧ 8 < s.buses.opl.toNat)) ∧
    (t.status = 4 ↔
      (((builtKind? Config.prio i).isSome = true ∧ (locoN i).toNat ≤ 4) ∨ i = .nodeHash) ∧ ¬ Configured s ∨
      i = .ctrAdvance ∧ s.ctrV = 0) ∧
    (t.status = 0 ∨ t.status = 1 ∨ t.status = 3 ∨ t.status = 4)

/-- R220: nothing stops the block, however many steps it runs, and only reset writes STATUS = 7. -/
def Obligations.NothingStopsTheBlock : Prop :=
  (∀ (n : Nat) (s : State), ∃ t, runSteps n s = .next t) ∧
  (∀ s t : State, step s = .next t → t.status = 7 →
    (∃ rest, s.issues = .reset :: rest) ∨ (s.issues = [] ∧ s.status = 7))

/-- R22, R29, R190: each register changes only through the operations that its row names. -/
def Obligations.RegistersChangeOnlyThroughTheirWriters : Prop :=
  ∀ (i : Instr) (s t : State), exec i s = .next t →
    (t.nodeId ≠ s.nodeId → i = .cfgNodeId) ∧
    (t.legacy ≠ s.legacy → ∃ lg, i = .cfgMode lg) ∧
    (t.ctr ≠ s.ctr → i = .ctrAdvance ∨ ∃ c, i = .ctrWrite c) ∧
    (t.tx ≠ s.tx ∨ t.txData ≠ s.txData → (builtKind? Config.prio i).isSome = true) ∧
    (t.hdr ≠ s.hdr → i = .parse) ∧
    (t.res ≠ s.res → writesRes i = true) ∧
    (t.dev ≠ s.dev ∨ t.devV ≠ s.devV → i = .extractDevice) ∧
    t.issues = s.issues

/-! ### The output ports -/

/-- R32, R36: an unwritten output register gives the host no value, and the ports do not show NODE_ID, LEGACY or CTR.
Three points are the model's reading, DEDUCED and not the spec's words: that DEV_* gives no value while DEV_V is 0, and
TX_DATA none while TX_V is 0 (R32; notes/assumptions/5.md, 10.md); and, in the last clause, that the flags NODE_ID_V,
LEGACY_V and CTR_V are no output ports either, where R36 names only the three values (notes/assumptions/16.md). -/
def Obligations.PortsShowNoUnwrittenRegister : Prop :=
  (∀ s : State, s.txV = 0 →
    s.outputs.txId = .unwritten ∧ s.outputs.txDlc = .unwritten ∧ ∀ k : Fin 8, s.outputs.txData[k] = .unwritten) ∧
  (∀ s : State, s.hdrV = 0 →
    s.outputs.hdrPrio = .unwritten ∧ s.outputs.hdrCmd = .unwritten ∧ s.outputs.hdrStatus = .unwritten ∧
    s.outputs.hdrAddr = .unwritten) ∧
  (∀ s : State, s.resV = 0 → s.outputs.res = .unwritten) ∧
  (∀ s : State, s.devV = 0 → s.outputs.devIdentity = .unwritten ∧ s.outputs.devType = .unwritten) ∧
  (∀ (s : State) (n : Reg (BitVec 32)) (l : Reg (BitVec 1)) (c : Reg (BitVec 3)),
    State.outputs { s with nodeId := n, legacy := l, ctr := c } = s.outputs)

/-- R36: the host learns NODE_ID, LEGACY and CTR only through the node hash. Two states that differ in these three
alone, and agree on the node hash and on CTR_V, show the same outputs after any operation. The two states may differ in
NODE_ID_V and LEGACY_V: that these flags, and CTR_V, are no output ports is the model's reading, DEDUCED, where R36
names only the three values (notes/assumptions/16.md). -/
def Obligations.ConfigurationShowsOnlyThroughTheNodeHash : Prop :=
  ∀ (i : Instr) (s t : State) (n : Reg (BitVec 32)) (l : Reg (BitVec 1)) (c : Reg (BitVec 3)),
    nodeHash { s with nodeId := n, legacy := l, ctr := c } = nodeHash s → c.valid = s.ctrV →
    exec i s = .next t →
      ∃ u, exec i { s with nodeId := n, legacy := l, ctr := c } = .next u ∧ u.outputs = t.outputs

/-! ### Invariants -/

/-- The state after reset meets the invariant. -/
def Obligations.ResetMeetsTheInvariant : Prop := StateInv State.reset

/-- R39 and what follows from R27, R30, R32, R118, R211, R217: every step, whatever the host presents, keeps the
invariant. -/
def Obligations.EveryStepKeepsTheInvariant : Prop := ∀ s t : State, StateInv s → step s = .next t → StateInv t

/-! ### Assembly -/

/-- R83, R84: the examples of R83 assemble to the words that it gives, and the pseudo-operations expand to the
operations of R84, whatever the buses carry where the line says nothing. -/
def Obligations.AssemblyExamples : Prop :=
  ∀ others : Buses,
    assembleLine others "HASH_MIX ctr=5 | opa=0x0000A9E1".toList =
      some [.operation 0x0511 { others with opa := 0x0000A9E1 }] ∧
    assembleLine others "BUILD_LOCO_SPEED n=2 | opd=[0,0,0x40,0x05,0x01,0xF4]".toList =
      some [.operation 0x0228
        { others with opd := #v[0x00, 0x00, 0x40, 0x05, 0x01, 0xF4, others.opd[6], others.opd[7]] }] ∧
    assembleLine others "INIT id=0x4711EEF0, legacy=0, ctr=5".toList =
      some [.operation 0x0001 { others with opa := 0x4711EEF0 }, .operation 0x0002 others, .operation 0x0503 others] ∧
    assembleLine others "HASH_LEGACY | opa=0xA9E1".toList = some [.operation 0x0811 { others with opa := 0xA9E1 }] ∧
    assembleLine others "BUILD_SYSTEM hold ; stop the trains".toList = some [.operation 0x0023 others]
end

