-- ==== Sys2Proof/Laws/State.lean ====
section
/-! SUPPORT. The small lemmas of State: one per field per update, all true by rfl, so that no proof unfolds an
update. -/

namespace Sys2Proof.Machine

/-! ### Registers and flags -/

@[simp] theorem Reg.valid_unwritten {α : Type} : (Reg.unwritten : Reg α).valid = 0 := rfl
@[simp] theorem Reg.valid_holds {α : Type} (v : α) : (Reg.holds v).valid = 1 := rfl
@[simp] theorem Reg.map_unwritten {α β : Type} (f : α → β) : (Reg.unwritten : Reg α).map f = .unwritten := rfl
@[simp] theorem Reg.map_holds {α β : Type} (f : α → β) (v : α) : (Reg.holds v).map f = .holds (f v) := rfl
@[simp] theorem Reg.value?_unwritten {α : Type} : (Reg.unwritten : Reg α).value? = none := rfl
@[simp] theorem Reg.value?_holds {α : Type} (v : α) : (Reg.holds v).value? = some v := rfl

/-- A valid flag is 1 exactly when its register holds a value. -/
theorem Reg.valid_eq_one {α : Type} (r : Reg α) : r.valid = 1 ↔ ∃ v, r = .holds v := by
  cases r <;> simp [Reg.valid]

/-- A valid flag is 0 exactly when its register is unwritten. -/
theorem Reg.valid_eq_zero {α : Type} (r : Reg α) : r.valid = 0 ↔ r = .unwritten := by
  cases r <;> simp [Reg.valid]

/-! ### raiseError -/

@[simp] theorem raiseError_nodeId (e : Err) (s : State) : (raiseError e s).nodeId = s.nodeId := rfl
@[simp] theorem raiseError_legacy (e : Err) (s : State) : (raiseError e s).legacy = s.legacy := rfl
@[simp] theorem raiseError_ctr (e : Err) (s : State) : (raiseError e s).ctr = s.ctr := rfl
@[simp] theorem raiseError_tx (e : Err) (s : State) : (raiseError e s).tx = s.tx := rfl
@[simp] theorem raiseError_txData (e : Err) (s : State) : (raiseError e s).txData = s.txData := rfl
@[simp] theorem raiseError_hdr (e : Err) (s : State) : (raiseError e s).hdr = s.hdr := rfl
@[simp] theorem raiseError_res (e : Err) (s : State) : (raiseError e s).res = s.res := rfl
@[simp] theorem raiseError_dev (e : Err) (s : State) : (raiseError e s).dev = s.dev := rfl
@[simp] theorem raiseError_devV (e : Err) (s : State) : (raiseError e s).devV = s.devV := rfl
@[simp] theorem raiseError_status (e : Err) (s : State) : (raiseError e s).status = e.code := rfl
@[simp] theorem raiseError_issues (e : Err) (s : State) : (raiseError e s).issues = s.issues := rfl

/-! ### writeRes -/

@[simp] theorem writeRes_nodeId {n : Nat} (v : BitVec n) (s : State) : (writeRes v s).nodeId = s.nodeId := rfl
@[simp] theorem writeRes_legacy {n : Nat} (v : BitVec n) (s : State) : (writeRes v s).legacy = s.legacy := rfl
@[simp] theorem writeRes_ctr {n : Nat} (v : BitVec n) (s : State) : (writeRes v s).ctr = s.ctr := rfl
@[simp] theorem writeRes_tx {n : Nat} (v : BitVec n) (s : State) : (writeRes v s).tx = s.tx := rfl
@[simp] theorem writeRes_txData {n : Nat} (v : BitVec n) (s : State) : (writeRes v s).txData = s.txData := rfl
@[simp] theorem writeRes_hdr {n : Nat} (v : BitVec n) (s : State) : (writeRes v s).hdr = s.hdr := rfl
@[simp] theorem writeRes_res {n : Nat} (v : BitVec n) (s : State) : (writeRes v s).res = .holds (v.setWidth 32) := rfl
@[simp] theorem writeRes_dev {n : Nat} (v : BitVec n) (s : State) : (writeRes v s).dev = s.dev := rfl
@[simp] theorem writeRes_devV {n : Nat} (v : BitVec n) (s : State) : (writeRes v s).devV = s.devV := rfl
@[simp] theorem writeRes_status {n : Nat} (v : BitVec n) (s : State) : (writeRes v s).status = s.status := rfl
@[simp] theorem writeRes_issues {n : Nat} (v : BitVec n) (s : State) : (writeRes v s).issues = s.issues := rfl

/-! ### advancePort -/

@[simp] theorem State.advancePort_nodeId (s : State) : (s.advancePort).nodeId = s.nodeId := rfl
@[simp] theorem State.advancePort_legacy (s : State) : (s.advancePort).legacy = s.legacy := rfl
@[simp] theorem State.advancePort_ctr (s : State) : (s.advancePort).ctr = s.ctr := rfl
@[simp] theorem State.advancePort_tx (s : State) : (s.advancePort).tx = s.tx := rfl
@[simp] theorem State.advancePort_txData (s : State) : (s.advancePort).txData = s.txData := rfl
@[simp] theorem State.advancePort_hdr (s : State) : (s.advancePort).hdr = s.hdr := rfl
@[simp] theorem State.advancePort_res (s : State) : (s.advancePort).res = s.res := rfl
@[simp] theorem State.advancePort_dev (s : State) : (s.advancePort).dev = s.dev := rfl
@[simp] theorem State.advancePort_devV (s : State) : (s.advancePort).devV = s.devV := rfl
@[simp] theorem State.advancePort_status (s : State) : (s.advancePort).status = s.status := rfl
@[simp] theorem State.advancePort_issues (s : State) : (s.advancePort).issues = s.issues.tail := rfl

/-! ### resetRegisters -/

@[simp] theorem resetRegisters_nodeId (s : State) : (resetRegisters s).nodeId = State.reset.nodeId := rfl
@[simp] theorem resetRegisters_legacy (s : State) : (resetRegisters s).legacy = State.reset.legacy := rfl
@[simp] theorem resetRegisters_ctr (s : State) : (resetRegisters s).ctr = State.reset.ctr := rfl
@[simp] theorem resetRegisters_tx (s : State) : (resetRegisters s).tx = State.reset.tx := rfl
@[simp] theorem resetRegisters_txData (s : State) : (resetRegisters s).txData = State.reset.txData := rfl
@[simp] theorem resetRegisters_hdr (s : State) : (resetRegisters s).hdr = State.reset.hdr := rfl
@[simp] theorem resetRegisters_res (s : State) : (resetRegisters s).res = State.reset.res := rfl
@[simp] theorem resetRegisters_dev (s : State) : (resetRegisters s).dev = State.reset.dev := rfl
@[simp] theorem resetRegisters_devV (s : State) : (resetRegisters s).devV = State.reset.devV := rfl
@[simp] theorem resetRegisters_status (s : State) : (resetRegisters s).status = State.reset.status := rfl
@[simp] theorem resetRegisters_issues (s : State) : (resetRegisters s).issues = s.issues := rfl

/-! ### present -/

@[simp] theorem State.present_nodeId (w : OpWord) (s : State) : (s.present w).nodeId = s.nodeId := rfl
@[simp] theorem State.present_legacy (w : OpWord) (s : State) : (s.present w).legacy = s.legacy := rfl
@[simp] theorem State.present_ctr (w : OpWord) (s : State) : (s.present w).ctr = s.ctr := rfl
@[simp] theorem State.present_tx (w : OpWord) (s : State) : (s.present w).tx = s.tx := rfl
@[simp] theorem State.present_txData (w : OpWord) (s : State) : (s.present w).txData = s.txData := rfl
@[simp] theorem State.present_hdr (w : OpWord) (s : State) : (s.present w).hdr = s.hdr := rfl
@[simp] theorem State.present_res (w : OpWord) (s : State) : (s.present w).res = s.res := rfl
@[simp] theorem State.present_dev (w : OpWord) (s : State) : (s.present w).dev = s.dev := rfl
@[simp] theorem State.present_devV (w : OpWord) (s : State) : (s.present w).devV = s.devV := rfl
@[simp] theorem State.present_status (w : OpWord) (s : State) : (s.present w).status = s.status := rfl
@[simp] theorem State.present_issues (w : OpWord) (s : State) : (s.present w).issues = .operation w s.buses :: s.issues := rfl

/-! ### The operand buses -/

@[simp] theorem State.buses_operation (s : State) (w : OpWord) (b : Buses) (rest : List HostEvent)
    (h : s.issues = .operation w b :: rest) : s.buses = b := by
  simp [State.buses, h]

@[simp] theorem State.buses_present (s : State) (w : OpWord) : (s.present w).buses = s.buses := rfl

end Sys2Proof.Machine
end

