-- ==== Sys2Proof/Laws/Ops.lean ====
section
/-! SUPPORT. One lemma for each shared operation that says everything it can do; later proofs cite it instead of
unfolding the operation. -/

namespace Sys2Proof.Machine

/-! ### complete -/

@[simp] theorem complete_ok (s t : State) : complete s (.ok t) = .next { t with status := statusOk } := rfl

@[simp] theorem complete_error (s : State) (e : Err) : complete s (.error e) = .next (raiseError e s) := rfl

/-- An operation ends with its results and STATUS = OK, or with an error and nothing but STATUS written. -/
theorem complete_next {s t : State} {r : Except Err State} (h : complete s r = .next t) :
    (∃ u, r = .ok u ∧ t = { u with status := statusOk }) ∨ (∃ e, r = .error e ∧ t = raiseError e s) := by
  cases r with
  | ok u => exact .inl ⟨u, rfl, by simpa using h.symm⟩
  | error e => exact .inr ⟨e, rfl, by simpa using h.symm⟩

/-- Every operation that ends through `complete` has a next state. -/
theorem complete_exists_next (s : State) (r : Except Err State) : ∃ t, complete s r = .next t := by
  cases r with
  | ok u => exact ⟨_, rfl⟩
  | error e => exact ⟨_, rfl⟩

/-- No error has the STATUS code OK. -/
theorem Err.code_ne_statusOk (e : Err) : e.code ≠ statusOk := by
  cases e <;> decide

/-! ### writeBytes -/

@[simp] theorem writeBytes_nil (d : Vector (Reg Byte) 8) : writeBytes d [] = d := rfl

@[simp] theorem writeBytes_cons (d : Vector (Reg Byte) 8) (w : ByteWrite) (ws : List ByteWrite) :
    writeBytes d (w :: ws) = writeBytes (d.set w.1 (.holds w.2)) ws := rfl

theorem writeBytes_append (d : Vector (Reg Byte) 8) (vs ws : List ByteWrite) :
    writeBytes d (vs ++ ws) = writeBytes (writeBytes d vs) ws := by
  simp [writeBytes, List.foldl_append]

/-- A byte that no write names is kept (R102). -/
theorem writeBytes_unnamed (ws : List ByteWrite) (d : Vector (Reg Byte) 8) (k : Fin 8) (h : ∀ w ∈ ws, w.1 ≠ k) :
    (writeBytes d ws)[k] = d[k] := by
  induction ws generalizing d with
  | nil => rfl
  | cons w ws ih =>
    have hne : w.1.val ≠ k.val := fun he => h w (by simp) (Fin.ext he)
    rw [writeBytes_cons, ih _ (fun v hv => h v (by simp [hv]))]
    simp [hne]

/-- After the writes, a byte holds the value that some write gives it, or is kept. -/
theorem writeBytes_cases (ws : List ByteWrite) (d : Vector (Reg Byte) 8) (k : Fin 8) :
    (∃ w ∈ ws, w.1 = k ∧ (writeBytes d ws)[k] = .holds w.2) ∨ (writeBytes d ws)[k] = d[k] := by
  induction ws generalizing d with
  | nil => exact .inr rfl
  | cons w ws ih =>
    rw [writeBytes_cons]
    obtain ⟨v, hv, hk, he⟩ | he := ih (d.set w.1 (.holds w.2))
    · exact .inl ⟨v, by simp [hv], hk, he⟩
    · by_cases hw : w.1 = k
      · exact .inl ⟨w, by simp, hw, by rw [he]; subst hw; simp⟩
      · refine .inr (he.trans ?_)
        have hne : w.1.val ≠ k.val := fun h => hw (Fin.ext h)
        simp [hne]

/-- Where the writes name distinct bytes, each named byte holds its value afterwards. -/
theorem writeBytes_named (ws : List ByteWrite) (d : Vector (Reg Byte) 8) (hd : (ws.map Prod.fst).Nodup)
    (w : ByteWrite) (hw : w ∈ ws) : (writeBytes d ws)[w.1] = .holds w.2 := by
  induction ws generalizing d with
  | nil => cases hw
  | cons v ws ih =>
    rw [List.map_cons, List.nodup_cons] at hd
    rw [writeBytes_cons]
    rcases List.mem_cons.1 hw with rfl | hw'
    · rw [writeBytes_unnamed ws _ _ (fun u hu he => hd.1 (List.mem_map.2 ⟨u, hu, he⟩))]
      simp
    · exact ih _ hd.2 hw'

/-! ### indicesBelow and copiedBytes -/

@[simp] theorem mem_indicesBelow (n : Nat) (k : Fin 8) : k ∈ indicesBelow n ↔ k.val < n := by
  simp [indicesBelow]

theorem copiedBytes_fst (opd : Payload) (n : Nat) : (copiedBytes opd n).map Prod.fst = indicesBelow n := by
  simp [copiedBytes, Function.comp_def]

theorem mem_copiedBytes (opd : Payload) (n : Nat) (w : ByteWrite) :
    w ∈ copiedBytes opd n ↔ w.1.val < n ∧ w.2 = opd[w.1] := by
  obtain ⟨k, v⟩ := w
  simp only [copiedBytes, List.mem_map, mem_indicesBelow, Prod.mk.injEq]
  constructor
  · rintro ⟨j, hj, rfl, rfl⟩
    exact ⟨hj, rfl⟩
  · rintro ⟨hk, hv⟩
    exact ⟨k, hk, rfl, hv.symm⟩

/-- After copying the first `n` bytes of opd, byte k is opd[k] below `n` and kept from `n` on (R109, R111). -/
theorem writeBytes_copiedBytes (d : Vector (Reg Byte) 8) (opd : Payload) (n : Nat) (k : Fin 8) :
    (writeBytes d (copiedBytes opd n))[k] = if k.val < n then .holds opd[k] else d[k] := by
  by_cases hk : k.val < n
  · have hnd : ((copiedBytes opd n).map Prod.fst).Nodup := by
      rw [copiedBytes_fst]
      exact (List.nodup_finRange 8).filter _
    have := writeBytes_named (copiedBytes opd n) d hnd (k, opd[k]) ((mem_copiedBytes opd n _).2 ⟨hk, rfl⟩)
    simpa [hk] using this
  · rw [if_neg hk]
    exact writeBytes_unnamed _ _ _ (fun w hw he => hk (he ▸ ((mem_copiedBytes opd n w).1 hw).1))

/-! ### requireLength -/

theorem requireLength_of_le {α : Type} {len : BitVec 4} (k : Except Err α) (h : len ≤ 8) : requireLength len k = k :=
  if_pos h

theorem requireLength_of_gt {α : Type} {len : BitVec 4} (k : Except Err α) (h : ¬ len ≤ 8) :
    requireLength len k = .error .badLength :=
  if_neg h

end Sys2Proof.Machine
end

