-- ==== Sys2Proof/Laws/Build.lean ====
section
/-! SUPPORT. What the node hash and the shared build operations can answer (42_identity_hash.md R173, 40_encoder.md
R100, R111). -/

namespace Sys2Proof.Machine

/-- The only error of the node hash is UNCONFIGURED. -/
theorem nodeHash_error {s : State} {e : Err} (h : nodeHash s = .error e) : e = .unconfigured := by
  unfold nodeHash at h
  split at h
  · split at h
    · cases h
    · split at h
      · cases h
      · exact (Except.error.inj h).symm
  · exact (Except.error.inj h).symm

/-- The node hash depends on NODE_ID, LEGACY and CTR only. -/
theorem nodeHash_congr {s t : State} (hn : s.nodeId = t.nodeId) (hl : s.legacy = t.legacy) (hc : s.ctr = t.ctr) :
    nodeHash s = nodeHash t := by
  simp only [nodeHash, hn, hl, hc]

@[simp] theorem builtData_false (d : Vector (Reg Byte) 8) (ws : List ByteWrite) :
    builtData d ws false = writeBytes d ws := rfl

/-- With the broadcast fill, bytes 0 to 3 are 0x00 and the others are as the named writes leave them (R101). -/
theorem builtData_true (d : Vector (Reg Byte) 8) (ws : List ByteWrite) (k : Fin 8) :
    (builtData d ws true)[k] = if k.val < 4 then .holds 0x00 else (writeBytes d ws)[k] := by
  fin_cases k <;> simp [builtData, broadcastWrites]

/-- A build that succeeds has a node hash and writes TX_ID, TX_DLC and TX_DATA only. -/
theorem buildFrame_ok {code : Byte} {prio : BitVec 2} {len : BitVec 4} {ws : List ByteWrite} {bc : Bool} {s t : State}
    (h : buildFrame code prio len ws bc s = .ok t) :
    ∃ a, nodeHash s = .ok a ∧
      t = { s with tx := .holds ⟨packId prio code requestBit a, len⟩, txData := builtData s.txData ws bc } := by
  unfold buildFrame at h
  split at h
  · next a ha => exact ⟨a, ha, (Except.ok.inj h).symm⟩
  · cases h

/-- A build that fails in `buildFrame` fails for want of configuration. -/
theorem buildFrame_error {code : Byte} {prio : BitVec 2} {len : BitVec 4} {ws : List ByteWrite} {bc : Bool} {s : State}
    {e : Err} (h : buildFrame code prio len ws bc s = .error e) :
    e = .unconfigured ∧ nodeHash s = .error .unconfigured := by
  unfold buildFrame at h
  split at h
  · cases h
  · next e' he =>
    cases h
    have := nodeHash_error he
    subst this
    exact ⟨rfl, he⟩

/-- A state with a node hash builds the frame. -/
theorem buildFrame_of_nodeHash {s : State} {a : BitVec 16} (ha : nodeHash s = .ok a) (code : Byte) (prio : BitVec 2)
    (len : BitVec 4) (ws : List ByteWrite) (bc : Bool) :
    buildFrame code prio len ws bc s =
      .ok { s with tx := .holds ⟨packId prio code requestBit a, len⟩, txData := builtData s.txData ws bc } := by
  simp [buildFrame, ha]

/-- The length of a loco-control frame, 4 + N, where N is accepted. -/
theorem locoLength_toNat {n : BitVec 3} (h : n ≤ 4) : (4 + n.setWidth 4 : BitVec 4).toNat = 4 + n.toNat := by
  revert n
  decide

/-- The build of a logical command: everything it can answer. -/
theorem buildCommand_cases (p : Priorities) (cmd : LogicalCommand) (n : BitVec 3) (s : State) :
    (template? p cmd = none ∧ buildCommand p cmd n s = .error .unknownCommand) ∨
    (∃ t, template? p cmd = some t ∧ t.payload = .addressPlusN ∧ ¬ n ≤ 4 ∧
      buildCommand p cmd n s = .error .badLength) ∨
    (∃ t len ws, template? p cmd = some t ∧ (t.payload = .addressPlusN → n ≤ 4) ∧
      ((t.payload = .fixed len ws) ∨ (t.payload = .copied len ∧ ws = copiedBytes s.buses.opd len.toNat) ∨
        (t.payload = .addressPlusN ∧ len = 4 + n.setWidth 4 ∧ ws = copiedBytes s.buses.opd (4 + n.toNat))) ∧
      buildCommand p cmd n s = buildFrame t.code t.prio len ws t.broadcast s) := by
  unfold buildCommand
  split
  · next ht => exact .inl ⟨ht, rfl⟩
  · next t ht =>
    right
    split
    · next len ws hp => exact .inr ⟨t, len, ws, ht, by simp [hp], .inl hp, rfl⟩
    · next len hp => exact .inr ⟨t, len, _, ht, by simp [hp], .inr (.inl ⟨hp, rfl⟩), rfl⟩
    · next hp =>
      split
      · next hn => exact .inr ⟨t, _, _, ht, fun _ => hn, .inr (.inr ⟨hp, rfl, rfl⟩), rfl⟩
      · next hn => exact .inl ⟨t, ht, hp, hn, rfl⟩

end Sys2Proof.Machine
end

