-- ==== Sys2Proof/Laws/Exec.lean ====
section
/-! SUPPORT. What an operation, a word at the port and a step can do. -/

namespace Sys2Proof.Machine

/-! ### Each operation ends through `complete` -/

theorem exec_cfgNodeId (s : State) :
    exec .cfgNodeId s = complete s (.ok { s with nodeId := .holds s.buses.opa }) := rfl

theorem exec_cfgMode (lg : BitVec 1) (s : State) :
    exec (.cfgMode lg) s = complete s (.ok { s with legacy := .holds lg }) := rfl

theorem exec_ctrWrite (ctr : BitVec 3) (s : State) :
    exec (.ctrWrite ctr) s = complete s (.ok { s with ctr := .holds ctr }) := rfl

theorem exec_ctrAdvance (s : State) :
    exec .ctrAdvance s = complete s (match s.ctr with
      | .holds c => .ok { s with ctr := .holds (c + 1) }
      | .unwritten => .error .unconfigured) := rfl

theorem exec_hashDerive (s : State) :
    exec .hashDerive s = complete s (.ok (writeRes (deriveHash s.buses.opa) s)) := rfl

theorem exec_hashMix (ctr : BitVec 3) (lg : BitVec 1) (s : State) :
    exec (.hashMix ctr lg) s = complete s (.ok (writeRes (mixCounter (s.buses.opa.extractLsb' 0 16) ctr lg) s)) := rfl

theorem exec_nodeHash (s : State) :
    exec .nodeHash s = complete s ((nodeHash s).map (fun h => writeRes h s)) := rfl

theorem exec_buildBootloaderStart (s : State) :
    exec .buildBootloaderStart s = complete s (buildCommand Config.prio .bootloaderStart 0 s) := rfl

theorem exec_buildPing (s : State) :
    exec .buildPing s = complete s (buildCommand Config.prio .ping 0 s) := rfl

theorem exec_buildSystemGo (s : State) :
    exec .buildSystemGo s = complete s (buildCommand Config.prio .systemGo 0 s) := rfl

theorem exec_buildSystemHold (s : State) :
    exec .buildSystemHold s = complete s (buildCommand Config.prio .systemHold 0 s) := rfl

theorem exec_buildSystemStop (s : State) :
    exec .buildSystemStop s = complete s (buildCommand Config.prio .systemStop 0 s) := rfl

theorem exec_buildMfxDiscovery (s : State) :
    exec .buildMfxDiscovery s = complete s (buildCommand Config.prio .mfxDiscovery 0 s) := rfl

theorem exec_buildMfxBind (s : State) :
    exec .buildMfxBind s = complete s (buildCommand Config.prio .mfxBind 0 s) := rfl

theorem exec_buildMfxVerify (s : State) :
    exec .buildMfxVerify s = complete s (buildCommand Config.prio .mfxVerify 0 s) := rfl

theorem exec_buildLocoSpeed (n : BitVec 3) (s : State) :
    exec (.buildLocoSpeed n) s = complete s (buildCommand Config.prio .locoSpeed n s) := rfl

theorem exec_buildLocoDir (n : BitVec 3) (s : State) :
    exec (.buildLocoDir n) s = complete s (buildCommand Config.prio .locoDir n s) := rfl

theorem exec_buildLocoFunc (n : BitVec 3) (s : State) :
    exec (.buildLocoFunc n) s = complete s (buildCommand Config.prio .locoFunc n s) := rfl

theorem exec_buildBind (s : State) :
    exec .buildBind s = complete s (buildBindRequest Config.prio s) := rfl

theorem exec_reservedBuild (opc : Byte) (s : State) :
    exec (.reservedBuild opc) s = complete s (.error .unknownCommand) := rfl

theorem exec_parse (s : State) :
    exec .parse s = complete s (.ok { s with hdr := .holds (unpackId s.buses.opa) }) := rfl

theorem exec_classify (s : State) :
    exec .classify s = complete s (requireLength s.buses.opl (.ok (writeRes (classifyFrame s.buses.opa s.buses.opl) s))) := rfl

theorem exec_extractDevice (s : State) :
    exec .extractDevice s = complete s (requireLength s.buses.opl
      (if classifyFrame s.buses.opa s.buses.opl = classPingRespDevice then
        .ok { s with dev := .holds (deviceOf s.buses.opd), devV := 1 }
      else .ok { s with devV := 0 })) := rfl

/-- Every operation ends through `complete`. -/
theorem exec_eq_complete (i : Instr) (s : State) : ∃ r, exec i s = complete s r := by
  cases i with
  | cfgNodeId => exact ⟨_, exec_cfgNodeId s⟩
  | cfgMode lg => exact ⟨_, exec_cfgMode lg s⟩
  | ctrWrite ctr => exact ⟨_, exec_ctrWrite ctr s⟩
  | ctrAdvance => exact ⟨_, exec_ctrAdvance s⟩
  | hashDerive => exact ⟨_, exec_hashDerive s⟩
  | hashMix ctr lg => exact ⟨_, exec_hashMix ctr lg s⟩
  | nodeHash => exact ⟨_, exec_nodeHash s⟩
  | buildBootloaderStart => exact ⟨_, exec_buildBootloaderStart s⟩
  | buildPing => exact ⟨_, exec_buildPing s⟩
  | buildSystemGo => exact ⟨_, exec_buildSystemGo s⟩
  | buildSystemHold => exact ⟨_, exec_buildSystemHold s⟩
  | buildSystemStop => exact ⟨_, exec_buildSystemStop s⟩
  | buildMfxDiscovery => exact ⟨_, exec_buildMfxDiscovery s⟩
  | buildMfxBind => exact ⟨_, exec_buildMfxBind s⟩
  | buildMfxVerify => exact ⟨_, exec_buildMfxVerify s⟩
  | buildLocoSpeed n => exact ⟨_, exec_buildLocoSpeed n s⟩
  | buildLocoDir n => exact ⟨_, exec_buildLocoDir n s⟩
  | buildLocoFunc n => exact ⟨_, exec_buildLocoFunc n s⟩
  | buildBind => exact ⟨_, exec_buildBind s⟩
  | reservedBuild opc => exact ⟨_, exec_reservedBuild opc s⟩
  | parse => exact ⟨_, exec_parse s⟩
  | classify => exact ⟨_, exec_classify s⟩
  | extractDevice => exact ⟨_, exec_extractDevice s⟩

/-- Every operation has a next state (60_exceptions.md R210, R220). -/
theorem exec_exists_next (i : Instr) (s : State) : ∃ t, exec i s = .next t := by
  obtain ⟨r, hr⟩ := exec_eq_complete i s
  obtain ⟨t, ht⟩ := complete_exists_next s r
  exact ⟨t, hr.trans ht⟩

@[simp] theorem thenAdvance_next (t : State) : thenAdvance (.next t) = .next t.advancePort := rfl

/-- A word at the port runs the operation it decodes to. -/
theorem runWord_op {w : OpWord} {i : Instr} (h : decode w = .op i) (s : State) : runWord w s = exec i s := by
  simp [runWord, h]

/-- An illegal word writes STATUS only. -/
theorem runWord_illegal {w : OpWord} {c : IllegalCause} (h : decode w = .illegalOp c) (s : State) :
    runWord w s = .next (raiseError .illegalOp s) := by
  simp [runWord, h]

/-- A step with nothing presented, with a reset at the port, or with an operation at the port. -/
theorem step_cases {s t : State} (h : step s = .next t) :
    (s.issues = [] ∧ t = s) ∨
    (∃ rest, s.issues = .reset :: rest ∧ t = (resetRegisters s).advancePort) ∨
    (∃ w b rest u, s.issues = .operation w b :: rest ∧ runWord w s = .next u ∧ t = u.advancePort) := by
  unfold step takeFromPort at h
  split at h
  · next hi => exact .inl ⟨hi, by simpa using h.symm⟩
  · next e rest hi =>
    cases e with
    | reset => exact .inr (.inl ⟨rest, hi, by simpa [serve] using h.symm⟩)
    | operation w b =>
      right; right
      obtain ⟨u, hu⟩ : ∃ u, runWord w s = .next u := by
        unfold runWord
        split
        · next i _ => exact exec_exists_next i s
        · exact ⟨_, rfl⟩
      refine ⟨w, b, rest, u, hi, hu, ?_⟩
      simpa [serve, hu] using h.symm

end Sys2Proof.Machine
end

