-- ==== Sys2Proof/Laws/Effect.lean ====
section
/-! SUPPORT. Once for all operations: every way an operation can end. Invariants and frames follow from this one case
distinction instead of unfolding each meaning again. -/

namespace Sys2Proof.Machine

/-- The ways operation `i` can end in state `s`, with the next state. -/
inductive Effect (i : Instr) (s : State) : State → Prop where
  /-- An error: STATUS only (60_exceptions.md R212). -/
  | failed (e : Err) : Effect i s (raiseError e s)
  /-- CFG_NODE_ID (R191). -/
  | nodeId (hi : i = .cfgNodeId) : Effect i s { s with nodeId := .holds s.buses.opa, status := statusOk }
  /-- CFG_MODE (R192). -/
  | legacy (lg : BitVec 1) (hi : i = .cfgMode lg) : Effect i s { s with legacy := .holds lg, status := statusOk }
  /-- CTR_WRITE (R193) or CTR_ADVANCE (R194). -/
  | ctr (c : BitVec 3) (hi : i = .ctrWrite c ∨ i = .ctrAdvance ∧ s.ctr = .holds (c - 1)) :
      Effect i s { s with ctr := .holds c, status := statusOk }
  /-- A 16-bit result in RES: HASH_DERIVE, HASH_MIX, NODE_HASH or CLASSIFY (10_state.md R29). -/
  | result (v : BitVec 16) (hi : writesRes i = true) :
      Effect i s { s with res := .holds (v.setWidth 32), status := statusOk }
  /-- PARSE (R141). -/
  | header (hi : i = .parse) : Effect i s { s with hdr := .holds (unpackId s.buses.opa), status := statusOk }
  /-- EXTRACT_DEVICE on a Ping response of length 8 (R147). -/
  | device (hi : i = .extractDevice) :
      Effect i s { s with dev := .holds (deviceOf s.buses.opd), devV := 1, status := statusOk }
  /-- EXTRACT_DEVICE on any other frame (R147). -/
  | noDevice (hi : i = .extractDevice) : Effect i s { s with devV := 0, status := statusOk }
  /-- A build: the identifier of its kind with the node hash of the state, every byte below the length written, every
  other byte kept (40_encoder.md R100, R102). -/
  | frame (prio : BitVec 2) (code : Byte) (a : BitVec 16) (len : BitVec 4) (d : Vector (Reg Byte) 8)
      (hi : builtKind? Config.prio i = some (prio, code)) (ha : nodeHash s = .ok a) (hlen : len.toNat ≤ 8)
      (hbelow : ∀ k : Fin 8, k.val < len.toNat → ∃ v, d[k] = .holds v)
      (habove : ∀ k : Fin 8, len.toNat ≤ k.val → d[k] = s.txData[k]) :
      Effect i s { s with tx := .holds ⟨packId prio code requestBit a, len⟩, txData := d, status := statusOk }

/-- A build of a frame ends as `Effect.frame`, or for want of configuration with an error. -/
theorem effect_of_buildFrame {i : Instr} {s t : State} {code : Byte} {prio : BitVec 2} {len : BitVec 4}
    {ws : List ByteWrite} {bc : Bool} (h : complete s (buildFrame code prio len ws bc s) = .next t)
    (hi : builtKind? Config.prio i = some (prio, code)) (hlen : len.toNat ≤ 8)
    (hbelow : ∀ k : Fin 8, k.val < len.toNat → ∃ v, (builtData s.txData ws bc)[k] = .holds v)
    (habove : ∀ k : Fin 8, len.toNat ≤ k.val → (builtData s.txData ws bc)[k] = s.txData[k]) : Effect i s t := by
  obtain ⟨u, hu, rfl⟩ | ⟨e, -, rfl⟩ := complete_next h
  · obtain ⟨a, ha, rfl⟩ := buildFrame_ok hu
    exact .frame prio code a len _ hi ha hlen hbelow habove
  · exact .failed e

/-- A build that copies every byte below its length from opd. -/
theorem effect_of_copyingBuild {i : Instr} {s t : State} {code : Byte} {prio : BitVec 2} {len : BitVec 4} {n : Nat}
    (h : complete s (buildFrame code prio len (copiedBytes s.buses.opd n) false s) = .next t)
    (hi : builtKind? Config.prio i = some (prio, code)) (hlen : len.toNat ≤ 8) (hn : len.toNat = n) :
    Effect i s t := by
  refine effect_of_buildFrame h hi hlen (fun k hk => ?_) (fun k hk => ?_)
  · exact ⟨_, (writeBytes_copiedBytes _ _ _ k).trans (if_pos (hn ▸ hk))⟩
  · exact (writeBytes_copiedBytes _ _ _ k).trans (if_neg (by omega))

/-- The build of a loco-control command. -/
theorem effect_of_locoBuild {i : Instr} {s t : State} {cmd : LogicalCommand} {n : BitVec 3} {code : Byte}
    {prio : BitVec 2} (h : complete s (buildCommand Config.prio cmd n s) = .next t)
    (ht : template? Config.prio cmd = some ⟨code, prio, .addressPlusN, false⟩)
    (hi : builtKind? Config.prio i = some (prio, code)) : Effect i s t := by
  by_cases hn : n ≤ 4
  · have hlen := locoLength_toNat hn
    have hb : buildCommand Config.prio cmd n s =
        buildFrame code prio (4 + n.setWidth 4) (copiedBytes s.buses.opd (4 + n.toNat)) false s := by
      simp only [buildCommand, ht, if_pos hn]
    have hn4 : n.toNat ≤ 4 := hn
    exact effect_of_copyingBuild (hb ▸ h) hi (by omega) hlen
  · have hb : buildCommand Config.prio cmd n s = .error .badLength := by
      simp only [buildCommand, ht, if_neg hn]
    rw [hb] at h
    cases h
    exact .failed _

/-- Every way an operation can end. -/
theorem exec_effect {i : Instr} {s t : State} (h : exec i s = .next t) : Effect i s t := by
  cases i with
  | cfgNodeId => cases h; exact .nodeId rfl
  | cfgMode lg => cases h; exact .legacy lg rfl
  | ctrWrite c => cases h; exact .ctr c (.inl rfl)
  | ctrAdvance =>
    rw [exec_ctrAdvance] at h
    split at h <;> cases h
    · next c hc => exact .ctr (c + 1) (.inr ⟨rfl, by simp [hc]⟩)
    · exact .failed _
  | hashDerive => cases h; exact .result _ rfl
  | hashMix c lg => cases h; exact .result _ rfl
  | nodeHash =>
    rw [exec_nodeHash] at h
    cases hn : nodeHash s <;> rw [hn] at h <;> cases h
    · exact .failed _
    · exact .result _ rfl
  | parse => cases h; exact .header rfl
  | classify =>
    rw [exec_classify] at h
    unfold requireLength at h
    split at h <;> cases h
    · exact .result ((classifyFrame s.buses.opa s.buses.opl).setWidth 16) rfl
    · exact .failed _
  | extractDevice =>
    rw [exec_extractDevice] at h
    unfold requireLength at h
    split at h
    · split at h <;> cases h
      · exact .device rfl
      · exact .noDevice rfl
    · cases h
      exact .failed _
  | buildMfxVerify => cases h; exact .failed _
  | reservedBuild _ => cases h; exact .failed _
  | buildLocoSpeed n => exact effect_of_locoBuild ((exec_buildLocoSpeed n s).symm.trans h) rfl rfl
  | buildLocoDir n => exact effect_of_locoBuild ((exec_buildLocoDir n s).symm.trans h) rfl rfl
  | buildLocoFunc n => exact effect_of_locoBuild ((exec_buildLocoFunc n s).symm.trans h) rfl rfl
  | buildMfxBind => exact effect_of_copyingBuild (n := 6) ((exec_buildMfxBind s).symm.trans h) rfl (by decide) rfl
  | buildPing =>
    exact effect_of_buildFrame ((exec_buildPing s).symm.trans h) rfl (by decide) (by intro k hk; simp at hk)
      (by intro k _; rfl)
  | buildMfxDiscovery =>
    refine effect_of_buildFrame ((exec_buildMfxDiscovery s).symm.trans h) rfl (by decide) ?_ ?_ <;>
      (intro k; fin_cases k <;> simp)
  | buildBind =>
    refine effect_of_buildFrame ((exec_buildBind s).symm.trans h) rfl (by decide) ?_ ?_ <;>
      (intro k; fin_cases k <;> simp)
  | buildBootloaderStart =>
    refine effect_of_buildFrame ((exec_buildBootloaderStart s).symm.trans h) rfl (by decide) ?_ ?_ <;>
      (intro k; rw [builtData_true]; fin_cases k <;> simp)
  | buildSystemGo =>
    refine effect_of_buildFrame ((exec_buildSystemGo s).symm.trans h) rfl (by decide) ?_ ?_ <;>
      (intro k; rw [builtData_true]; fin_cases k <;> simp)
  | buildSystemHold =>
    refine effect_of_buildFrame ((exec_buildSystemHold s).symm.trans h) rfl (by decide) ?_ ?_ <;>
      (intro k; rw [builtData_true]; fin_cases k <;> simp)
  | buildSystemStop =>
    refine effect_of_buildFrame ((exec_buildSystemStop s).symm.trans h) rfl (by decide) ?_ ?_ <;>
      (intro k; rw [builtData_true]; fin_cases k <;> simp)

/-- No operation changes what the host presents. -/
theorem exec_issues {i : Instr} {s t : State} (h : exec i s = .next t) : t.issues = s.issues := by
  cases exec_effect h <;> rfl

/-- Serving the operation at the port: its effect, with the port advanced. -/
theorem step_operation {s : State} {w : OpWord} {b : Buses} {rest : List HostEvent} {i : Instr}
    (hs : s.issues = .operation w b :: rest) (hw : decode w = .op i) :
    ∃ t, Effect i s t ∧ step s = .next t.advancePort := by
  obtain ⟨t, ht⟩ := exec_exists_next i s
  exact ⟨t, exec_effect ht, by simp [step, takeFromPort, hs, serve, runWord_op hw, ht]⟩

@[simp] theorem runSteps_zero (s : State) : runSteps 0 s = .next s := rfl

/-- A run of one step more, where the first step has a next state. -/
theorem runSteps_succ (n : Nat) {s t : State} (h : step s = .next t) : runSteps (n + 1) s = runSteps n t := by
  simp only [runSteps, h]

/-- `runSteps` is the host's run of the machine. -/
theorem runSteps_eq_run (n : Nat) (s : State) : runSteps n s = Host.Core.run Sys2Proof.core n s := by
  induction n generalizing s with
  | zero => rfl
  | succ n ih =>
    have hc : Sys2Proof.core.step s = step s := rfl
    simp only [runSteps, Host.Core.run]
    cases hs : step s with
    | next t => simp only [hc, hs]; exact ih t
    | fault r => exact nomatch r
    | refused r => simp only [hc, hs]; rfl

end Sys2Proof.Machine
end

