-- ==== Sys2Proof/Laws/PerInstr.lean ====
section
/-! SUPPORT. Statements made per operation, as syntax. EncodedFields: the encoder puts each field of an operation at
the bits that 30_encoding.md R76 gives the field. -/

namespace Sys2Proof.Laws.EncodedFields

/-- RSV is 0 and LG, ARG and OPC of the operation word are the operation's own (R76). -/
def Statement (i : Instr) : Prop :=
  wordRsv (encode i) = 0 ∧ wordLg (encode i) = lgOf i ∧ wordArg (encode i) = argOf i ∧ wordOpc (encode i) = opcOf i

/-- Packing a word and reading its fields gives the fields back. -/
theorem packWord_fields (lg : BitVec 1) (arg : BitVec 3) (opc : Byte) :
    wordRsv (packWord lg arg opc) = 0 ∧ wordLg (packWord lg arg opc) = lg ∧ wordArg (packWord lg arg opc) = arg ∧
      wordOpc (packWord lg arg opc) = opc := by
  revert lg arg opc
  decide +kernel

theorem cfgNodeId : Statement .cfgNodeId := packWord_fields _ _ _
theorem cfgMode (lg : BitVec 1) : Statement (.cfgMode lg) := packWord_fields _ _ _
theorem ctrWrite (ctr : BitVec 3) : Statement (.ctrWrite ctr) := packWord_fields _ _ _
theorem ctrAdvance : Statement .ctrAdvance := packWord_fields _ _ _
theorem hashDerive : Statement .hashDerive := packWord_fields _ _ _
theorem hashMix (ctr : BitVec 3) (lg : BitVec 1) : Statement (.hashMix ctr lg) := packWord_fields _ _ _
theorem nodeHash : Statement .nodeHash := packWord_fields _ _ _
theorem buildBootloaderStart : Statement .buildBootloaderStart := packWord_fields _ _ _
theorem buildPing : Statement .buildPing := packWord_fields _ _ _
theorem buildSystemGo : Statement .buildSystemGo := packWord_fields _ _ _
theorem buildSystemHold : Statement .buildSystemHold := packWord_fields _ _ _
theorem buildSystemStop : Statement .buildSystemStop := packWord_fields _ _ _
theorem buildMfxDiscovery : Statement .buildMfxDiscovery := packWord_fields _ _ _
theorem buildMfxBind : Statement .buildMfxBind := packWord_fields _ _ _
theorem buildMfxVerify : Statement .buildMfxVerify := packWord_fields _ _ _
theorem buildLocoSpeed (n : BitVec 3) : Statement (.buildLocoSpeed n) := packWord_fields _ _ _
theorem buildLocoDir (n : BitVec 3) : Statement (.buildLocoDir n) := packWord_fields _ _ _
theorem buildLocoFunc (n : BitVec 3) : Statement (.buildLocoFunc n) := packWord_fields _ _ _
theorem buildBind : Statement .buildBind := packWord_fields _ _ _
theorem reservedBuild (opc : Byte) : Statement (.reservedBuild opc) := packWord_fields _ _ _
theorem parse : Statement .parse := packWord_fields _ _ _
theorem classify : Statement .classify := packWord_fields _ _ _
theorem extractDevice : Statement .extractDevice := packWord_fields _ _ _

end Sys2Proof.Laws.EncodedFields
end

