-- ==== Sys2Proof/Tests/Slice0.lean ====
section
/-! SUPPORT. The model's own tests. Expected values come from spec/95_test_vectors.md (S<n>, L2.<n>, P<n>) or are
counted by hand from the rule that a test names. Builds are tested under the configuration T0 of 95_test_vectors.md,
every priority 0, through the shared operation that the meanings call. The last section shows, for every statement
with hypotheses, a state and operands that meet them. -/

namespace Sys2Proof.Tests

open Sys2Proof Sys2Proof.Machine

/-! ### Helpers -/

/-- T0: every priority parameter is 0. -/
def t0 : Priorities := ⟨0, 0, 0, 0, 0, 0, 0, 0, 0, 0, 0⟩

/-- S0: the reference state of 95_test_vectors.md. -/
def s0 : State := { State.reset with nodeId := .holds 0x4711EEF0, legacy := .holds 0, ctr := .holds 5, status := 0 }

/-- The state with every TX_DATA byte 0xAA. -/
def withSentinel (s : State) : State := { s with txData := Vector.replicate 8 (.holds 0xAA) }

/-- The state with the given buses at the port. -/
def onBuses (b : Buses) (s : State) : State := { s with issues := [.operation 0 b] }

/-- Buses that carry `x` on opa. -/
def opa (x : BitVec 32) : Buses := { idleBuses with opa := x }

/-- Buses of a received frame. -/
def received (x : BitVec 32) (len : BitVec 4) (data : Payload) : Buses := ⟨x, data, len, 0⟩

/-- The next state, where there is one. -/
def after : Result → Option State
  | .next t => some t
  | .fault _ => none
  | .refused _ => none

/-- The frame registers that a build leaves. -/
def frameOf : Except Err State → Option (Reg TxHead × Vector (Reg Byte) 8)
  | .ok t => some (t.tx, t.txData)
  | .error _ => none

/-- The payload 01 02 03 04 00 07 .. of R109's example. -/
def payload : Payload := #v[0x01, 0x02, 0x03, 0x04, 0x00, 0x07, 0xBB, 0xCC]

/-- The payload of the Ping response of L2.4. -/
def pingPayload : Payload := #v[0x47, 0x11, 0xEE, 0xF0, 0x01, 0x02, 0x00, 0x10]

/-! ### WellFormed: the one check refuses what is outside 0x2C to 0x2F (R80) -/

theorem test_wellFormed_refuses_below : wellFormed (.reservedBuild 0x2B) = false := by decide

theorem test_wellFormed_refuses_above : wellFormed (.reservedBuild 0x30) = false := by decide

/-! ### Decoding: every operation's word, written out from R76 and R77 -/

theorem test_decode_control :
    decode 0b0000_0_000_00000001#16 = .op .cfgNodeId ∧ decode 0b0000_1_000_00000010#16 = .op (.cfgMode 1) ∧
    decode 0b0000_0_101_00000011#16 = .op (.ctrWrite 5) ∧ decode 0b0000_0_000_00000100#16 = .op .ctrAdvance := by
  decide

theorem test_decode_hash :
    decode 0b0000_0_000_00010000#16 = .op .hashDerive ∧ decode 0b0000_1_011_00010001#16 = .op (.hashMix 3 1) ∧
    decode 0b0000_0_000_00010010#16 = .op .nodeHash := by
  decide

theorem test_decode_builds :
    decode 0b0000_0_000_00100000#16 = .op .buildBootloaderStart ∧ decode 0b0000_0_000_00100001#16 = .op .buildPing ∧
    decode 0b0000_0_000_00100010#16 = .op .buildSystemGo ∧ decode 0b0000_0_000_00100011#16 = .op .buildSystemHold ∧
    decode 0b0000_0_000_00100100#16 = .op .buildSystemStop ∧
    decode 0b0000_0_000_00100101#16 = .op .buildMfxDiscovery ∧ decode 0b0000_0_000_00100110#16 = .op .buildMfxBind ∧
    decode 0b0000_0_000_00100111#16 = .op .buildMfxVerify := by
  decide

theorem test_decode_loco_and_bind :
    decode 0b0000_0_010_00101000#16 = .op (.buildLocoSpeed 2) ∧ decode 0b0000_0_001_00101001#16 = .op (.buildLocoDir 1) ∧
    decode 0b0000_0_111_00101010#16 = .op (.buildLocoFunc 7) ∧ decode 0b0000_0_000_00101011#16 = .op .buildBind ∧
    decode 0b0000_0_000_00101100#16 = .op (.reservedBuild 0x2C) ∧
    decode 0b0000_0_000_00101111#16 = .op (.reservedBuild 0x2F) := by
  decide

theorem test_decode_decoder :
    decode 0b0000_0_000_01000000#16 = .op .parse ∧ decode 0b0000_0_000_01000001#16 = .op .classify ∧
    decode 0b0000_0_000_01000010#16 = .op .extractDevice := by
  decide

/-- L2.1: the illegal words of its table. -/
theorem test_decode_illegal :
    ([0x0000, 0x0101, 0x0102, 0x0803, 0x0005, 0x000F, 0x1011, 0x0828, 0x012C, 0x0030, 0x003F, 0x0043, 0x00FF,
      0xF040].all (fun n => isIllegalWord (BitVec.ofNat 16 n))) = true := by
  decide

theorem test_decodeTableWord : decodeTableWord 16 0x0511 = some (.hashMix 5 0) ∧ decodeTableWord 16 0 = none := by
  decide

/-! ### Control (L2.5) -/

theorem test_cfgNodeId_zero :
    (after (exec .cfgNodeId (onBuses (opa 0) .reset))).map (fun t => (t.nodeId, t.nodeIdV, t.status)) =
      some (.holds 0, 1, 0) := by
  decide

theorem test_cfgMode_keeps_counter :
    (after (exec (.cfgMode 0) { s0 with legacy := .holds 1, ctr := .holds 2 })).map
      (fun t => (t.legacy, t.ctr, nodeHash t)) = some (.holds 0, .holds 2, .ok 0xA961) := by
  decide

theorem test_ctrWrite : (after (exec (.ctrWrite 7) .reset)).map (fun t => (t.ctr, t.ctrV)) = some (.holds 7, 1) := by
  decide

theorem test_ctrAdvance_wraps :
    (after (exec .ctrAdvance { s0 with ctr := .holds 7 })).map (fun t => (t.ctr, t.status)) = some (.holds 0, 0) := by
  decide

theorem test_ctrAdvance_unconfigured :
    (after (exec .ctrAdvance { State.reset with legacy := .holds 1 })).map (fun t => (t.ctr, t.status)) =
      some (.unwritten, 4) := by
  decide

/-! ### Identity hash (L2.2) -/

theorem test_hashDerive :
    (after (exec .hashDerive (onBuses (opa 0xDEADBEEF) .reset))).map (fun t => (t.res, t.resV)) =
      some (.holds 0x00006042, 1) := by
  decide

theorem test_hashMix_counter :
    (after (exec (.hashMix 4 0) (onBuses (opa 0xFFFFA9E1) .reset))).map State.res = some (.holds 0x0000AA61) := by
  decide

/-- S4: bit 15 is kept and the counter is not read. -/
theorem test_hashMix_legacy :
    (after (exec (.hashMix 3 1) (onBuses (opa 0x8000) .reset))).map State.res = some (.holds 0x00008300) := by
  decide

theorem test_nodeHash : (after (exec .nodeHash s0)).map State.res = some (.holds 0x0000AAE1) := by decide

/-- Legacy mode needs no counter (R176). -/
theorem test_nodeHash_legacy :
    (after (exec .nodeHash { s0 with legacy := .holds 1, ctr := .unwritten })).map State.res =
      some (.holds 0x0000AB61) := by
  decide

/-! ### Encoder (L2.3, S5, S6, the examples of R103 to R115) -/

theorem test_bootloaderStart :
    frameOf (buildCommand t0 .bootloaderStart 0 s0) =
      some (.holds ⟨0x0036AAE1, 5⟩, #v[.holds 0, .holds 0, .holds 0, .holds 0, .holds 0x11, .unwritten, .unwritten,
        .unwritten]) := by
  decide

theorem test_ping_sentinel :
    frameOf (buildCommand t0 .ping 0 (withSentinel s0)) =
      some (.holds ⟨0x0030AAE1, 0⟩, Vector.replicate 8 (.holds 0xAA)) := by
  decide

/-- With PRIO_PING = 3, bits 28:27 are still 0 (L2.3). -/
theorem test_ping_priority :
    (frameOf (buildCommand { t0 with ping := 3 } .ping 0 s0)).map Prod.fst = some (.holds ⟨0x0630AAE1, 0⟩) := by
  decide

theorem test_systemGo_sentinel :
    frameOf (buildCommand t0 .systemGo 0 (withSentinel s0)) =
      some (.holds ⟨0x0000AAE1, 5⟩, #v[.holds 0, .holds 0, .holds 0, .holds 0, .holds 1, .holds 0xAA, .holds 0xAA,
        .holds 0xAA]) := by
  decide

theorem test_systemHold :
    (frameOf (buildCommand t0 .systemHold 0 s0)).map (fun f => (f.1, f.2[4])) =
      some (.holds ⟨0x0000AAE1, 5⟩, .holds 0x02) := by
  decide

theorem test_systemStop_sentinel :
    (frameOf (buildCommand t0 .systemStop 0 (withSentinel s0))).map (fun f => (f.1, f.2[4], f.2[5])) =
      some (.holds ⟨0x0000AAE1, 5⟩, .holds 0x00, .holds 0xAA) := by
  decide

theorem test_mfxDiscovery_sentinel :
    (frameOf (buildCommand t0 .mfxDiscovery 0 (withSentinel s0))).map (fun f => (f.1, f.2[0], f.2[1])) =
      some (.holds ⟨0x0002AAE1, 1⟩, .holds 0x20, .holds 0xAA) := by
  decide

theorem test_mfxBind :
    frameOf (buildCommand t0 .mfxBind 0 (onBuses (received 0 0 payload) s0)) =
      some (.holds ⟨0x0004AAE1, 6⟩, #v[.holds 1, .holds 2, .holds 3, .holds 4, .holds 0, .holds 7, .unwritten,
        .unwritten]) := by
  decide

theorem test_mfxVerify : (after (exec .buildMfxVerify State.reset)).map State.status = some 1 := by decide

theorem test_locoSpeed :
    frameOf (buildCommand t0 .locoSpeed 2
        (onBuses (received 0 0 #v[0x00, 0x00, 0x40, 0x05, 0x01, 0xF4, 0x77, 0x88]) s0)) =
      some (.holds ⟨0x0008AAE1, 6⟩, #v[.holds 0x00, .holds 0x00, .holds 0x40, .holds 0x05, .holds 0x01, .holds 0xF4,
        .unwritten, .unwritten]) := by
  decide

/-- BAD_LENGTH comes before UNCONFIGURED (R218). -/
theorem test_locoSpeed_bad_length : (after (exec (.buildLocoSpeed 7) State.reset)).map State.status = some 3 := by decide

theorem test_locoDir :
    (frameOf (buildCommand t0 .locoDir 1 (onBuses (received 0 0 payload) s0))).map (fun f => (f.1, f.2[4], f.2[5])) =
      some (.holds ⟨0x000AAAE1, 5⟩, .holds 0x00, .unwritten) := by
  decide

theorem test_locoFunc_full :
    (frameOf (buildCommand t0 .locoFunc 4 (onBuses (received 0 0 payload) s0))).map (fun f => (f.1, f.2[7])) =
      some (.holds ⟨0x000CAAE1, 8⟩, .holds 0xCC) := by
  decide

theorem test_bind :
    frameOf (buildBindRequest t0 (onBuses ⟨0, #v[1, 2, 3, 4, 0x99, 6, 7, 8], 0, 0xFF⟩ s0)) =
      some (.holds ⟨0x0004AAE1, 6⟩, #v[.holds 1, .holds 2, .holds 3, .holds 4, .holds 0, .holds 0xFF, .unwritten,
        .unwritten]) := by
  decide

theorem test_reservedBuild : (after (exec (.reservedBuild 0x2F) State.reset)).map State.status = some 1 := by decide

theorem test_build_unconfigured :
    (after (exec .buildSystemHold State.reset)).map (fun t => (t.status, t.txV)) = some (4, 0) := by
  decide

/-! ### Decoder (L2.4) -/

theorem test_parse :
    (after (exec .parse (onBuses (opa 0x0031AAE1) .reset))).map State.hdr = some (.holds ⟨0, 0x18, 1, 0xAAE1⟩) := by
  decide

theorem test_parse_high_bits :
    (after (exec .parse (onBuses (opa 0xFE360000) .reset))).map State.hdr = some (.holds ⟨3, 0x1B, 0, 0⟩) := by
  decide

/-- L2.4: the classes of a discovery response by length, and of the other commands. -/
theorem test_classify_codes :
    [0, 1, 4, 5, 6, 7, 8].map (classifyFrame 0xFE03ABCD) = [5, 8, 8, 6, 8, 7, 7] ∧
    classifyFrame 0x00300000 8 = 1 ∧ classifyFrame 0x00310000 8 = 2 ∧ classifyFrame 0x00310000 7 = 3 ∧
    classifyFrame 0x00020000 3 = 4 ∧ classifyFrame 0x00040000 6 = 9 ∧ classifyFrame 0x00050000 2 = 10 ∧
    classifyFrame 0x00010000 5 = 0 := by
  decide

theorem test_classify_bad_length :
    (after (exec .classify (onBuses (received 0x00310000 9 payload) s0))).map (fun t => (t.status, t.res)) =
      some (3, .unwritten) := by
  decide

theorem test_extractDevice :
    (after (exec .extractDevice (onBuses (received 0x0031AAE1 8 pingPayload) .reset))).map (fun t => (t.dev, t.devV)) =
      some (.holds ⟨0x4711EEF0, 0x0010⟩, 1) := by
  decide

/-- P5, line 3: another frame clears DEV_V and keeps the fields. -/
theorem test_extractDevice_keeps_fields :
    (after (exec .extractDevice (onBuses (received 0x0031AAE1 7 payload)
        { State.reset with dev := .holds ⟨0x4711EEF0, 0x0010⟩, devV := 1 }))).map (fun t => (t.dev, t.devV, t.status)) =
      some (.holds ⟨0x4711EEF0, 0x0010⟩, 0, 0) := by
  decide

/-! ### The port, reset and the output ports -/

/-- The word placed by withFetchWord is the one that the next step runs. -/
theorem test_withFetchWord_runs :
    (after (step (State.reset.withFetchWord 16 0x0703))).map (fun t => (t.ctr, t.issues)) = some (.holds 7, []) := by
  decide

theorem test_withFetchWord_illegal :
    after (step (s0.withFetchWord 16 0x1021)) = some { s0 with status := 2 } := by
  decide

theorem test_reset_event : after (step { s0 with issues := [.reset] }) = some State.reset := by decide

/-- R27: the left-over bytes are no part of the transmitted frame. -/
theorem test_transmittedFrame :
    State.transmittedFrame { withSentinel s0 with tx := .holds ⟨0x0002AAE1, 1⟩ } = some ⟨0x0002AAE1, 1, [0xAA]⟩ := by
  decide

theorem test_assemble_comment_and_opl :
    assembleLine idleBuses "CLASSIFY | opa=0x0003ABCD, opl=0b101 ; found".toList =
      some [.operation 0x0041 (received 0x0003ABCD 5 idleBuses.opd)] := by
  decide

/-- Log entry 14: a `|` with nothing after it assigns no bus. -/
theorem test_assemble_empty_bus_part :
    assembleLine idleBuses "BUILD_PING |".toList = some [.operation 0x0021 idleBuses] ∧
    assembleLine idleBuses "|".toList = some [] := by
  decide

theorem test_assemble_rejects_wrong_field : assembleLine idleBuses "CTR_WRITE n=1".toList = none := by decide

/-! ### Witnesses: each statement's hypotheses are met -/

/-- S0 in legacy mode, with a reset at the port. -/
def sReset : State := { s0 with issues := [.reset] }

theorem witness_OnlyResetClearsValidFlags_reset : sReset.issues = .reset :: [] ∧ sReset.nodeIdV = 1 := by decide

/-- A device held, and EXTRACT_DEVICE of a frame that is no Ping response at the port: every flag is 1 before. -/
def sAllValid : State :=
  { s0 with tx := .holds ⟨0, 0⟩, hdr := .holds ⟨0, 0, 0, 0⟩, res := .holds 0, dev := .holds ⟨0, 0⟩, devV := 1,
            issues := [.operation 0x0042 idleBuses] }

theorem witness_OnlyResetClearsValidFlags_other :
    (∀ rest, sAllValid.issues ≠ .reset :: rest) ∧ (∃ t, step sAllValid = .next t ∧ t.devV ≠ 1) ∧
    sAllValid.nodeIdV = 1 ∧ sAllValid.legacyV = 1 ∧ sAllValid.ctrV = 1 ∧ sAllValid.txV = 1 ∧ sAllValid.hdrV = 1 ∧
    sAllValid.resV = 1 ∧ sAllValid.devV = 1 :=
  ⟨(fun _ h => nomatch h), ⟨_, rfl, by decide⟩, by decide, by decide, by decide, by decide, by decide, by decide,
    by decide⟩

/-- Right after reset, with a received length of 8 on the buses. -/
def sFresh : State := onBuses (received 0x0031AAE1 8 pingPayload) State.reset

theorem witness_OperationsRightAfterReset :
    sFresh.registers = State.reset ∧ sFresh.buses.opl.toNat ≤ 8 ∧
    (∃ c l, Instr.hashMix 5 1 = .hashMix c l) ∧
    (builtKind? Config.prio (.buildLocoSpeed 4)).isSome = true ∧ (locoN (.buildLocoSpeed 4)).toNat ≤ 4 ∧
    (builtKind? Config.prio .buildPing).isSome = true ∧ (locoN .buildPing).toNat ≤ 4 :=
  ⟨by decide, by decide, ⟨5, 1, rfl⟩, rfl, by decide, rfl, by decide⟩

theorem witness_StepRunsTheDecodedOperation :
    (s0.withFetchWord 16 0x0228).issues = .operation 0x0228 idleBuses :: [] ∧
      decode 0x0228 = .op (.buildLocoSpeed 2) := by
  decide

theorem witness_IdleStepChangesNothing : s0.issues = [] := by decide

theorem witness_IllegalWordsRaiseIllegalOp :
    (s0.withFetchWord 16 0x0827).issues = .operation 0x0827 idleBuses :: [] ∧ isIllegalWord 0x0827 = true := by decide

/-- Buses that differ in unread bits: bits 31:27 of opa for PARSE. -/
theorem witness_UnreadBusBitsDoNotMatter :
    decode 0x0040 = .op .parse ∧ AgreeOnReadBits .parse (opa 0xF8030000) (opa 0x00030000) ∧
      opa 0xF8030000 ≠ opa 0x00030000 := by
  refine ⟨by decide, ?_, by decide⟩
  show (opa 0xF8030000).opa.extractLsb' 0 27 = (opa 0x00030000).opa.extractLsb' 0 27
  decide

theorem witness_UnreadBusBitsDoNotMatter_loco :
    decode 0x0428 = .op (.buildLocoSpeed 4) ∧ AgreeOnReadBits (.buildLocoSpeed 4) (opa 1) (opa 2) :=
  ⟨by decide, fun _ _ _ => rfl⟩

theorem witness_UnreadBusBitsDoNotMatter_device :
    decode 0x0042 = .op .extractDevice ∧
    AgreeOnReadBits .extractDevice (received 0x0031AAE1 8 #v[1, 2, 3, 4, 0, 0, 7, 8])
      (received 0x0631BBF2 8 #v[1, 2, 3, 4, 5, 6, 7, 8]) := by
  refine ⟨by decide, by decide, by decide, ?_⟩
  decide

theorem witness_DecodeOfEncodeIsTheOperation :
    wellFormed (.reservedBuild 0x2C) = true ∧ wellFormed (.reservedBuild 0x2F) = true ∧
      wellFormed (.hashMix 7 1) = true := by
  decide

theorem witness_DecodedWordsEncodeBack : decode 0x0F11 = .op (.hashMix 7 1) := by decide

theorem witness_WordsAre : wordOpc 0x0112 = 0x12 ∧ wordOpc 0x012F = 0x2F ∧ (0x2C : Byte) ≤ 0x2F := by decide

theorem witness_CtrAdvanceAddsOneModulo8 : s0.ctr = .holds 5 ∧ State.reset.ctrV = 0 := by decide

theorem witness_AdvancesAddUpModulo8 :
    let s : State := { s0 with issues := List.replicate 8 (.operation 0x0004 idleBuses) }
    s.ctr = .holds 5 ∧ s.issues = List.replicate (7 + 1) (.operation 0x0004 idleBuses) ++ [] := by
  decide

theorem witness_OnlyControlOperationsWriteConfiguration :
    (∃ t, exec .buildPing s0 = .next t) ∧ isControl .buildPing = false ∧ (∃ t, exec (.ctrWrite 3) s0 = .next t) ∧
      isControl (.ctrWrite 3) = true :=
  ⟨⟨_, rfl⟩, by decide, ⟨_, rfl⟩, by decide⟩

theorem witness_BootOrderDoesNotMatter :
    let boot : List HostEvent := [.operation (encode (.ctrWrite 5)) idleBuses,
      .operation (encode .cfgNodeId) (opa 0x4711EEF0), .operation (encode (.cfgMode 0)) idleBuses]
    boot.Perm [.operation (encode .cfgNodeId) (opa 0x4711EEF0), .operation (encode (.cfgMode 0)) idleBuses,
      .operation (encode (.ctrWrite 5)) idleBuses] ∧
    State.issues { State.reset with issues := boot } = boot ++ [] := by
  decide

theorem witness_HashLaws : (0 : BitVec 3) ≠ 7 := by decide

/-- Both modes, with every register that the node hash reads written or not. -/
theorem witness_NodeHashOfTheConfiguration :
    s0.nodeId = .holds 0x4711EEF0 ∧ s0.legacy = .holds 0 ∧ s0.ctr = .holds 5 ∧ Configured s0 ∧
    State.legacy { s0 with legacy := .holds 1, ctr := .unwritten } = .holds 1 ∧
    Configured { s0 with legacy := .holds 1, ctr := .unwritten } ∧ ¬ Configured { s0 with ctr := .unwritten } ∧
    ¬ Configured State.reset := by
  unfold Configured
  decide

/-- For NODE_HASH and every build: a configured state and one that is not, N at 4 and at 5. -/
theorem witness_configured_and_not :
    Configured s0 ∧ ¬ Configured State.reset ∧ (4 : BitVec 3).toNat ≤ 4 ∧ 4 < (5 : BitVec 3).toNat := by
  unfold Configured
  decide

theorem witness_UnpackingUndoesPacking :
    (0xF8030000 : RawId).extractLsb' 0 27 = (0x00030000 : RawId).extractLsb' 0 27 := by
  decide

theorem witness_BuiltIdentifiersParseBack :
    builtKind? Config.prio .buildPing = some (Config.prio.ping, 0x18) ∧
      (∃ t, exec .buildPing s0 = .next t ∧ t.status = 0 ∧ ∃ h, t.tx = .holds h ∧
        State.buses (onBuses (opa (h.id.setWidth 32)) s0) = opa (h.id.setWidth 32)) :=
  ⟨rfl, _, rfl, rfl, _, rfl, rfl⟩

theorem witness_OnlyConfiguredRequestsAreBuilt :
    ∃ t h, exec .buildPing s0 = .next t ∧ t.tx = .holds h ∧ t.tx ≠ s0.tx ∧ t.status = 0 :=
  ⟨_, _, rfl, rfl, (fun h => nomatch h), rfl⟩

theorem witness_BytesAtOrAboveTheLengthAreKept :
    ∃ t, exec (.buildLocoSpeed 3) (withSentinel s0) = .next t ∧ t.status = 0 ∧
      (∀ h, t.tx = .holds h → h.dlc.toNat ≤ (7 : Fin 8).val) ∧
      (builtKind? Config.prio (.buildLocoSpeed 3)).isSome = true :=
  ⟨_, rfl, rfl, by intro h hh; cases hh; decide, rfl⟩

/-- A state that holds a frame of length 1 with its byte written; its identifier is that of a Ping row. -/
def sFrame : State := { withSentinel s0 with tx := .holds ⟨packId Config.prio.mfxDiscovery 0x01 0 0xAAE1, 1⟩ }

theorem witness_StateInv : StateInv sFrame where
  frameInBounds := by
    intro h hh
    cases hh
    exact ⟨by decide, by generalize Config.prio.mfxDiscovery = p; revert p; decide,
      by generalize Config.prio.mfxDiscovery = p; revert p; decide⟩
  frameWritten := by intro h _ k _; exact ⟨0xAA, by fin_cases k <;> rfl⟩
  noByteWithoutFrame := by intro h; cases h
  resultIn16Bits := by intro v h; cases h
  statusLegal := by unfold StatusLegal; decide
  deviceWritten := by intro h; cases h
  frameOfConfiguredKind := by
    intro h hh
    cases hh
    exact ⟨(Config.prio.mfxDiscovery, 0x01), by simp [builtKinds], 0xAAE1, rfl⟩
  resetStatusMeansReset := by intro h; cases h
  builtOnlyConfigured := by intro h _; exact ⟨rfl, rfl⟩

theorem witness_TransmittedFrameIsTheBytesBelowTheLength :
    StateInv sFrame ∧ (∃ h, sFrame.tx = .holds h ∧ (0 : Fin 8).val < h.dlc.toNat) ∧ s0.txV = 0 :=
  ⟨witness_StateInv, ⟨_, rfl, by decide⟩, by decide⟩

/-- Two states that hold one frame and differ above its length. -/
theorem witness_TransmittedFrame_agreement :
    ∃ s t : State, ∃ h, s.tx = .holds h ∧ t.tx = .holds h ∧ s.txData ≠ t.txData ∧
      ∀ k : Fin 8, k.val < h.dlc.toNat → s.txData[k] = t.txData[k] :=
  ⟨{ s0 with tx := .holds ⟨0x0030AAE1, 0⟩ }, { withSentinel s0 with tx := .holds ⟨0x0030AAE1, 0⟩ }, ⟨0x0030AAE1, 0⟩,
    rfl, rfl, by decide, by decide⟩

theorem witness_EveryStepKeepsTheInvariant :
    StateInv { sFrame with issues := [.operation 0x0021 idleBuses] } ∧
      ∃ t, step { sFrame with issues := [.operation 0x0021 idleBuses] } = .next t :=
  ⟨⟨witness_StateInv.1, witness_StateInv.2, witness_StateInv.3, witness_StateInv.4, witness_StateInv.5,
    witness_StateInv.6, witness_StateInv.7, (fun h => nomatch h), witness_StateInv.9⟩, ⟨_, rfl⟩⟩

/-- Each clause of ClassOfEveryFrame at the ends of its range of lengths. -/
theorem witness_ClassOfEveryFrame :
    (0x00300000 : RawId).extractLsb' 17 8 = 0x18 ∧ (0x00300000 : RawId).extractLsb' 16 1 = 0 ∧
    (0x00310000 : RawId).extractLsb' 17 8 = 0x18 ∧ (0x00310000 : RawId).extractLsb' 16 1 = 1 ∧
    (0x00020000 : RawId).extractLsb' 17 8 = 0x01 ∧ (0x00020000 : RawId).extractLsb' 16 1 = 0 ∧
    (0x00030000 : RawId).extractLsb' 17 8 = 0x01 ∧ (0x00030000 : RawId).extractLsb' 16 1 = 1 ∧
    (0x00040000 : RawId).extractLsb' 17 8 = 0x02 ∧ (0x00040000 : RawId).extractLsb' 16 1 = 0 ∧
    (0x00050000 : RawId).extractLsb' 17 8 = 0x02 ∧ (0x00050000 : RawId).extractLsb' 16 1 = 1 ∧
    (0x00000000 : RawId).extractLsb' 17 8 ≠ 0x18 ∧ (0x00000000 : RawId).extractLsb' 17 8 ≠ 0x01 ∧
    (0x00000000 : RawId).extractLsb' 17 8 ≠ 0x02 ∧
    (8 : BitVec 4).toNat ≤ 8 ∧ (8 : BitVec 4).toNat = 8 ∧ (7 : BitVec 4).toNat ≠ 8 ∧ (0 : BitVec 4).toNat = 0 ∧
    (5 : BitVec 4).toNat = 5 ∧ 7 ≤ (7 : BitVec 4).toNat ∧ (1 ≤ (1 : BitVec 4).toNat ∧ (4 : BitVec 4).toNat ≤ 4) ∧
    (6 : BitVec 4).toNat = 6 := by
  decide

/-- opl at 8 and at 9. -/
theorem witness_ClassifyWritesTheClass :
    (onBuses (received 0x00310000 8 payload) s0).buses.opl.toNat ≤ 8 ∧
      8 < (onBuses (received 0x00310000 9 payload) s0).buses.opl.toNat := by
  decide

theorem witness_ExtractDeviceReadsThePingResponse :
    sFresh.buses.opl.toNat = 8 ∧ sFresh.buses.opa.extractLsb' 17 8 = 0x18 ∧ sFresh.buses.opa.extractLsb' 16 1 = 1 ∧
    (onBuses (received 0x0031AAE1 7 payload) s0).buses.opl.toNat ≤ 8 ∧
    ¬ (onBuses (received 0x0031AAE1 7 payload) s0).buses.opl.toNat = 8 ∧
    8 < (onBuses (received 0x0031AAE1 9 payload) s0).buses.opl.toNat := by
  decide

theorem witness_DecodersNeedNoConfiguration :
    (∃ t, exec .parse sFresh = .next t) ∧ (∃ t, exec .classify sFresh = .next t) ∧
      (∃ t, exec .extractDevice sFresh = .next t) :=
  ⟨⟨_, rfl⟩, ⟨_, rfl⟩, ⟨_, rfl⟩⟩

theorem witness_FailedOperationsWriteOnlyStatus : ∃ t, exec .nodeHash State.reset = .next t ∧ t.status ≠ 0 :=
  ⟨_, rfl, by decide⟩

theorem witness_NothingStopsTheBlock : ∃ t, step sReset = .next t ∧ t.status = 7 := ⟨_, rfl, by decide⟩

theorem witness_NothingStopsTheBlock_idle : ∃ t, step State.reset = .next t ∧ t.status = 7 := ⟨_, rfl, by decide⟩

/-- Every register changes somewhere. -/
theorem witness_RegistersChangeOnlyThroughTheirWriters :
    (∃ t, exec .cfgNodeId sFresh = .next t ∧ t.nodeId ≠ sFresh.nodeId) ∧
    (∃ t, exec (.cfgMode 1) sFresh = .next t ∧ t.legacy ≠ sFresh.legacy) ∧
    (∃ t, exec (.ctrWrite 1) sFresh = .next t ∧ t.ctr ≠ sFresh.ctr) ∧
    (∃ t, exec .buildPing s0 = .next t ∧ t.tx ≠ s0.tx) ∧
    (∃ t, exec .parse sFresh = .next t ∧ t.hdr ≠ sFresh.hdr) ∧
    (∃ t, exec .hashDerive sFresh = .next t ∧ t.res ≠ sFresh.res) ∧
    (∃ t, exec .extractDevice sFresh = .next t ∧ t.dev ≠ sFresh.dev) :=
  ⟨⟨_, rfl, by decide⟩, ⟨_, rfl, by decide⟩, ⟨_, rfl, by decide⟩, ⟨_, rfl, (fun h => nomatch h)⟩, ⟨_, rfl, by decide⟩,
    ⟨_, rfl, by decide⟩, ⟨_, rfl, by decide⟩⟩

theorem witness_PortsShowNoUnwrittenRegister :
    s0.txV = 0 ∧ s0.hdrV = 0 ∧ s0.resV = 0 ∧ State.devV { s0 with dev := .holds ⟨1, 2⟩ } = 0 := by
  decide

/-- Legacy mode: another counter gives the same node hash. -/
theorem witness_ConfigurationShowsOnlyThroughTheNodeHash :
    let s : State := { s0 with legacy := .holds 1 }
    nodeHash { s with nodeId := .holds 0xEEF04711, legacy := .holds 0, ctr := .holds 6 } = nodeHash s ∧
      (Reg.holds (6 : BitVec 3)).valid = s.ctrV ∧ ∃ t, exec .nodeHash s = .next t :=
  ⟨by decide, by decide, ⟨_, rfl⟩⟩

end Sys2Proof.Tests
end

/-! The block's state and its ports (10_state.md): the statements O1, O4, O5, O7, O36 and O45 to O49, with the lemmas
they rest on. First the facts about words, identifiers, buses and the port, then what an operation's effect keeps, then
the statements by topic. -/

namespace Sys2Proof.Machine

/-! ### Bits of identifiers (30_encoding.md R71 to R73) -/

/-- Each bit of a packed identifier is the bit of the field that R71 places there. -/
theorem packId_getLsbD (p : BitVec 2) (c : Byte) (s : BitVec 1) (a : BitVec 16) {k : Nat} (hk : k < 29) :
    (packId p c s a).getLsbD k =
      if k < 16 then a.getLsbD k else if k < 17 then s.getLsbD (k - 16)
      else if k < 25 then c.getLsbD (k - 17) else p.getLsbD (k - 25) := by
  simp only [packId, BitVec.getLsbD_or, BitVec.getLsbD_shiftLeft, BitVec.getLsbD_setWidth]
  interval_cases k <;> simp

/-- Bits 28:27 of a packed identifier are 0. -/
theorem packId_extract_high (p : BitVec 2) (c : Byte) (s : BitVec 1) (a : BitVec 16) :
    (packId p c s a).extractLsb' 27 2 = 0 := by
  apply BitVec.eq_of_getLsbD_eq
  intro k hk
  rw [BitVec.getLsbD_extractLsb', packId_getLsbD _ _ _ _ (by omega), if_neg (by omega), if_neg (by omega),
    if_neg (by omega), BitVec.getLsbD_of_ge p _ (by omega)]
  simp

/-- Bit 16 of a packed identifier is its status. -/
theorem packId_extract_status (p : BitVec 2) (c : Byte) (s : BitVec 1) (a : BitVec 16) :
    (packId p c s a).extractLsb' 16 1 = s := by
  apply BitVec.eq_of_getLsbD_eq
  intro k hk
  obtain rfl : k = 0 := by omega
  rw [BitVec.getLsbD_extractLsb', packId_getLsbD _ _ _ _ (by omega)]
  simp

/-- Vectors that agree on a range of bits agree on every range within it. -/
theorem extractLsb'_congr {w i n j m : Nat} {x y : BitVec w} (h : x.extractLsb' i n = y.extractLsb' i n)
    (hi : i ≤ j) (hm : j + m ≤ i + n) : x.extractLsb' j m = y.extractLsb' j m := by
  apply BitVec.eq_of_getLsbD_eq
  intro k hk
  have hbit := congrArg (fun v => v.getLsbD (j - i + k)) h
  have hadd : i + (j - i + k) = j + k := by omega
  simpa [BitVec.getLsbD_extractLsb', hk, hadd, show j - i + k < n by omega] using hbit

/-- Unpacking reads bits 26:0 (30_encoding.md R73). -/
theorem unpackId_congr {x y : RawId} (h : x.extractLsb' 0 27 = y.extractLsb' 0 27) : unpackId x = unpackId y := by
  simp only [unpackId, Header.mk.injEq]
  refine ⟨?_, ?_, ?_, ?_⟩ <;> exact extractLsb'_congr h (by omega) (by omega)

/-- The classification reads the command and the status bit, bits 24:16 (41_decoder.md R144). -/
theorem classifyFrame_congr {x y : RawId} (h : x.extractLsb' 16 9 = y.extractLsb' 16 9) (len : BitVec 4) :
    classifyFrame x len = classifyFrame y len := by
  have hcmd : (unpackId x).cmd = (unpackId y).cmd := extractLsb'_congr h (by omega) (by omega)
  have hstatus : (unpackId x).status = (unpackId y).status := extractLsb'_congr h (by omega) (by omega)
  simp only [classifyFrame, hcmd, hstatus]

/-- A 16-bit value extended to 32 bits has no bit above the sixteenth. -/
theorem extractLsb'_high_setWidth (v : BitVec 16) : (v.setWidth 32).extractLsb' 16 16 = 0 := by
  ext k hk
  simp

/-! ### What the decoder answers (30_encoding.md R79) -/

theorem withoutFields_eq_op {arg : BitVec 3} {lg : BitVec 1} {i j : Instr} :
    withoutFields arg lg j = .op i ↔ arg = 0 ∧ lg = 0 ∧ j = i := by
  unfold withoutFields
  split_ifs with harg hlg
  · exact ⟨nofun, fun ⟨h, _⟩ => absurd h harg⟩
  · exact ⟨nofun, fun ⟨_, h, _⟩ => absurd h hlg⟩
  · simp_all

theorem withLgOnly_eq_op {arg : BitVec 3} {i j : Instr} : withLgOnly arg j = .op i ↔ arg = 0 ∧ j = i := by
  unfold withLgOnly
  split_ifs with harg
  · exact ⟨nofun, fun ⟨h, _⟩ => absurd h harg⟩
  · simp_all

theorem withArgOnly_eq_op {lg : BitVec 1} {i j : Instr} : withArgOnly lg j = .op i ↔ lg = 0 ∧ j = i := by
  unfold withArgOnly
  split_ifs with hlg
  · exact ⟨nofun, fun ⟨h, _⟩ => absurd h hlg⟩
  · simp_all

theorem decode_eq_op {w : OpWord} {i : Instr} :
    decode w = .op i ↔ wordRsv w = 0 ∧ decodeOpc (wordOpc w) (wordArg w) (wordLg w) = .op i := by
  unfold decode
  split_ifs with hrsv
  · exact ⟨nofun, fun ⟨h, _⟩ => absurd h hrsv⟩
  · simp_all

/-- What a word decodes to is an operation of the map: the codes of `reservedBuild` are the only ones with a range. -/
theorem wellFormed_of_decodeOpc {opc : Byte} {arg : BitVec 3} {lg : BitVec 1} {i : Instr}
    (h : decodeOpc opc arg lg = .op i) : wellFormed i = true := by
  cases i with
  | reservedBuild opc' =>
    unfold decodeOpc at h
    split at h <;>
      simp only [withoutFields_eq_op, withLgOnly_eq_op, withArgOnly_eq_op, Decoded.op.injEq,
        Instr.reservedBuild.injEq, reduceCtorEq, and_false] at h
    all_goals
      obtain ⟨-, -, rfl⟩ := h
      rfl
  | _ => rfl

/-! ### Reset and the idle step (R38, R22) -/

/-- Settles O1, from the fields of `State.reset`. -/
theorem resetLeavesEveryRegisterUnwritten : Obligations.ResetLeavesEveryRegisterUnwritten :=
  ⟨rfl, rfl, rfl, rfl, rfl, rfl, rfl, by decide, rfl, rfl, rfl, rfl, rfl, rfl, rfl, rfl⟩

/-- Settles O5, by the empty case of `takeFromPort`. -/
theorem idleStepChangesNothing : Obligations.IdleStepChangesNothing := by
  intro s hs
  simp [step, takeFromPort, hs]

/-! ### The operation port (R34, R35) -/

/-- Settles O4: every operation has a next state and leaves what the host presents, whose head then goes. -/
theorem stepRunsTheDecodedOperation : Obligations.StepRunsTheDecodedOperation := by
  intro s w b rest i hs hw
  obtain ⟨t, ht⟩ := exec_exists_next i s
  have hissues : t.issues = .operation w b :: rest := (exec_issues ht).trans hs
  refine ⟨wellFormed_of_decodeOpc (decode_eq_op.1 hw).2, State.buses_operation s w b rest hs, t, ht, ?_⟩
  simp [step, takeFromPort, hs, serve, runWord_op hw, ht, State.advancePort, hissues]

/-- `s` with word `w` at the port on the buses `b`, and `rest` to follow. -/
def State.atPort (s : State) (w : OpWord) (b : Buses) (rest : List HostEvent) : State :=
  { s with issues := .operation w b :: rest }

/-- Advancing the port commutes with the end of an operation. -/
theorem thenAdvance_complete (s : State) (r : Except Err State) :
    thenAdvance (complete s r) = complete s.advancePort (r.map State.advancePort) := by
  cases r <;> rfl

section Port

variable (s : State) (w : OpWord) (b c : Buses) (rest : List HostEvent)

@[simp] theorem State.atPort_buses : (s.atPort w b rest).buses = b := rfl

/-- Once the operation is gone, nothing of its buses is left (R35: the buses hold no state). -/
theorem State.atPort_advancePort : (s.atPort w b rest).advancePort = { s with issues := rest } := rfl

theorem nodeHash_atPort : nodeHash (s.atPort w b rest) = nodeHash s := nodeHash_congr rfl rfl rfl

/-- A step with an operation at the port runs it and takes it off. -/
theorem step_atPort {i : Instr} (hw : decode w = .op i) :
    step (s.atPort w b rest) = thenAdvance (exec i (s.atPort w b rest)) :=
  congrArg thenAdvance (runWord_op hw _)

/-- Two meanings with the same results, but for what the host presents, end alike on the two sets of buses. -/
theorem thenAdvance_complete_congr {r r' : Except Err State} (h : r.map State.advancePort = r'.map State.advancePort) :
    thenAdvance (complete (s.atPort w b rest) r) = thenAdvance (complete (s.atPort w c rest) r') := by
  rw [thenAdvance_complete, thenAdvance_complete, h, State.atPort_advancePort, State.atPort_advancePort]

/-- A build reads the buses only through the bytes it writes. -/
theorem buildFrame_atPort_congr (code : Byte) (prio : BitVec 2) (len : BitVec 4) (ws : List ByteWrite) (bc : Bool) :
    (buildFrame code prio len ws bc (s.atPort w b rest)).map State.advancePort =
      (buildFrame code prio len ws bc (s.atPort w c rest)).map State.advancePort := by
  unfold buildFrame
  rw [nodeHash_atPort, nodeHash_atPort]
  cases nodeHash s <;> rfl

end Port

theorem copiedBytes_congr {d e : Payload} {n : Nat} (h : ∀ k : Fin 8, k.val < n → d[k] = e[k]) :
    copiedBytes d n = copiedBytes e n :=
  List.map_congr_left (fun k hk => by rw [h k ((mem_indicesBelow n k).1 hk)])

/-- Two payloads agree on the bytes that a template copies from opd. -/
def CopiesAgree (n : BitVec 3) (d e : Payload) : PayloadRule → Prop
  | .fixed _ _ => True
  | .copied len => ∀ k : Fin 8, k.val < len.toNat → d[k] = e[k]
  | .addressPlusN => n.toNat ≤ 4 → ∀ k : Fin 8, k.val < 4 + n.toNat → d[k] = e[k]

/-- The build of a logical command reads of the buses only the bytes that its template copies. -/
theorem buildCommand_atPort_congr (s : State) (w : OpWord) {b c : Buses} (rest : List HostEvent) {p : Priorities}
    {cmd : LogicalCommand} {n : BitVec 3}
    (h : ∀ t, template? p cmd = some t → CopiesAgree n b.opd c.opd t.payload) :
    (buildCommand p cmd n (s.atPort w b rest)).map State.advancePort =
      (buildCommand p cmd n (s.atPort w c rest)).map State.advancePort := by
  unfold buildCommand
  cases ht : template? p cmd with
  | none => rfl
  | some t =>
    obtain ⟨code, prio, payload, bc⟩ := t
    have hcopy := h _ ht
    cases payload with
    | fixed len ws => exact buildFrame_atPort_congr ..
    | copied len =>
      simp only [State.atPort_buses, copiedBytes_congr hcopy]
      exact buildFrame_atPort_congr ..
    | addressPlusN =>
      by_cases hn : n ≤ 4
      · simp only [if_pos hn, State.atPort_buses, copiedBytes_congr (hcopy hn)]
        exact buildFrame_atPort_congr ..
      · simp only [if_neg hn]

/-- A Device is read from the bytes 0 to 3, 6 and 7 (R146). -/
theorem deviceOf_congr {d e : Payload} (h : ∀ k : Fin 8, k.val < 4 ∨ 6 ≤ k.val → d[k] = e[k]) :
    deviceOf d = deviceOf e := by
  have h0 : d[0] = e[0] := h 0 (by decide)
  have h1 : d[1] = e[1] := h 1 (by decide)
  have h2 : d[2] = e[2] := h 2 (by decide)
  have h3 : d[3] = e[3] := h 3 (by decide)
  have h6 : d[6] = e[6] := h 6 (by decide)
  have h7 : d[7] = e[7] := h 7 (by decide)
  simp only [deviceOf, h0, h1, h2, h3, h6, h7]

/-- The length check does not look at the results behind it. -/
theorem requireLength_map {α β : Type} (f : α → β) (len : BitVec 4) (r : Except Err α) :
    (requireLength len r).map f = requireLength len (r.map f) := by
  unfold requireLength
  split <;> rfl

/-- An operation ends alike on two sets of buses that agree on the bits it reads. -/
theorem exec_atPort_congr (s : State) (w : OpWord) {b c : Buses} (rest : List HostEvent) {i : Instr}
    (h : AgreeOnReadBits i b c) :
    thenAdvance (exec i (s.atPort w b rest)) = thenAdvance (exec i (s.atPort w c rest)) := by
  cases i with
  | cfgNodeId =>
    have hopa : b.opa = c.opa := h
    rw [exec_cfgNodeId, exec_cfgNodeId, State.atPort_buses, State.atPort_buses, hopa]
    rfl
  | hashDerive =>
    have hopa : b.opa = c.opa := h
    rw [exec_hashDerive, exec_hashDerive, State.atPort_buses, State.atPort_buses, hopa]
    rfl
  | hashMix ctr lg =>
    have hopa : b.opa.extractLsb' 0 16 = c.opa.extractLsb' 0 16 := h
    rw [exec_hashMix, exec_hashMix, State.atPort_buses, State.atPort_buses, hopa]
    rfl
  | parse =>
    rw [exec_parse, exec_parse, State.atPort_buses, State.atPort_buses, unpackId_congr h]
    rfl
  | classify =>
    obtain ⟨hopa, hopl⟩ := h
    rw [exec_classify, exec_classify, State.atPort_buses, State.atPort_buses, classifyFrame_congr hopa, hopl]
    apply thenAdvance_complete_congr
    rw [requireLength_map, requireLength_map]
    rfl
  | extractDevice =>
    obtain ⟨hopa, hopl, hopd⟩ := h
    rw [exec_extractDevice, exec_extractDevice, State.atPort_buses, State.atPort_buses, classifyFrame_congr hopa, hopl,
      deviceOf_congr hopd]
    apply thenAdvance_complete_congr
    rw [requireLength_map, requireLength_map, apply_ite (Except.map _), apply_ite (Except.map _)]
    rfl
  | cfgMode _ => rfl
  | ctrWrite _ => rfl
  | ctrAdvance =>
    rw [exec_ctrAdvance, exec_ctrAdvance]
    apply thenAdvance_complete_congr
    cases hc : s.ctr <;> simp [State.atPort, hc, Except.map, State.advancePort]
  | nodeHash =>
    rw [exec_nodeHash, exec_nodeHash, nodeHash_atPort, nodeHash_atPort]
    apply thenAdvance_complete_congr
    cases nodeHash s <;> rfl
  | reservedBuild _ | buildMfxVerify => rfl
  | buildBind =>
    obtain ⟨hopd, hopb⟩ := h
    have h0 : b.opd[0] = c.opd[0] := hopd 0 (by decide)
    have h1 : b.opd[1] = c.opd[1] := hopd 1 (by decide)
    have h2 : b.opd[2] = c.opd[2] := hopd 2 (by decide)
    have h3 : b.opd[3] = c.opd[3] := hopd 3 (by decide)
    rw [exec_buildBind, exec_buildBind]
    apply thenAdvance_complete_congr
    simp only [buildBindRequest, State.atPort_buses, h0, h1, h2, h3, hopb]
    exact buildFrame_atPort_congr ..
  | buildMfxBind | buildLocoSpeed _ | buildLocoDir _ | buildLocoFunc _ =>
    refine thenAdvance_complete_congr s w b c rest (buildCommand_atPort_congr s w rest ?_)
    intro t ht
    cases ht
    exact h
  | buildBootloaderStart | buildPing | buildSystemGo | buildSystemHold | buildSystemStop | buildMfxDiscovery =>
    refine thenAdvance_complete_congr s w b c rest (buildCommand_atPort_congr s w rest ?_)
    intro t ht
    cases ht
    trivial

/-- Settles O7: the buses leave the port with the operation, so only what its meaning reads of them can matter. -/
theorem unreadBusBitsDoNotMatter : Obligations.UnreadBusBitsDoNotMatter := by
  intro s w i b c rest hw hagree
  exact (step_atPort s w b rest hw).trans
    ((exec_atPort_congr s w rest hagree).trans (step_atPort s w c rest hw).symm)

/-! ### What an operation leaves unchanged, register by register (R22) -/

section Writers

variable {i : Instr} {s t : State}

theorem Effect.nodeId_kept (h : Effect i s t) : t.nodeId = s.nodeId ∨ i = .cfgNodeId := by
  cases h with
  | nodeId hi => exact .inr hi
  | _ => exact .inl rfl

theorem Effect.legacy_kept (h : Effect i s t) : t.legacy = s.legacy ∨ ∃ lg, i = .cfgMode lg := by
  cases h with
  | legacy lg hi => exact .inr ⟨lg, hi⟩
  | _ => exact .inl rfl

theorem Effect.ctr_kept (h : Effect i s t) : t.ctr = s.ctr ∨ i = .ctrAdvance ∨ ∃ c, i = .ctrWrite c := by
  cases h with
  | ctr c hi =>
    obtain hi | ⟨hi, -⟩ := hi
    · exact .inr (.inr ⟨c, hi⟩)
    · exact .inr (.inl hi)
  | _ => exact .inl rfl

/-- Either the frame is kept, or the operation built one: the identifier of its kind, a legal length, and every byte
below the length written (40_encoder.md R100, R102). -/
theorem Effect.frame_kept_or_built (h : Effect i s t) :
    (t.tx = s.tx ∧ t.txData = s.txData) ∨
    ∃ prio code a len, builtKind? Config.prio i = some (prio, code) ∧ nodeHash s = .ok a ∧ len.toNat ≤ 8 ∧
      t.tx = .holds ⟨packId prio code requestBit a, len⟩ ∧
      ∀ k : Fin 8, k.val < len.toNat → ∃ v, t.txData[k] = .holds v := by
  cases h with
  | frame prio code a len d hi ha hlen hbelow _ =>
    exact .inr ⟨prio, code, a, len, hi, ha, hlen, rfl, hbelow⟩
  | _ => exact .inl ⟨rfl, rfl⟩

theorem Effect.hdr_kept (h : Effect i s t) : t.hdr = s.hdr ∨ i = .parse := by
  cases h with
  | header hi => exact .inr hi
  | _ => exact .inl rfl

/-- RES is kept, or an operation of R29 wrote a 16-bit result to it. -/
theorem Effect.res_kept_or_written (h : Effect i s t) :
    t.res = s.res ∨ writesRes i = true ∧ ∃ v : BitVec 16, t.res = .holds (v.setWidth 32) := by
  cases h with
  | result v hi => exact .inr ⟨hi, v, rfl⟩
  | _ => exact .inl rfl

theorem Effect.dev_kept (h : Effect i s t) : (t.dev = s.dev ∧ t.devV = s.devV) ∨ i = .extractDevice := by
  cases h with
  | device hi => exact .inr hi
  | noDevice hi => exact .inr hi
  | _ => exact .inl ⟨rfl, rfl⟩

/-- An operation ends with OK or with the code of an error (60_exceptions.md R211). -/
theorem Effect.status_cases (h : Effect i s t) : t.status = statusOk ∨ ∃ e : Err, t.status = e.code := by
  cases h with
  | failed e => exact .inr ⟨e, rfl⟩
  | _ => exact .inl rfl

/-- No operation leaves a reserved STATUS code, or RESET (60_exceptions.md R211). -/
theorem Effect.status_ne (h : Effect i s t) : t.status ≠ 5 ∧ t.status ≠ 6 ∧ t.status ≠ statusReset := by
  obtain hst | ⟨e, hst⟩ := h.status_cases <;> rw [hst]
  · decide
  · cases e <;> decide

/-- No operation clears NODE_ID_V (70_reset_and_hazards.md R240). -/
theorem Effect.nodeIdV_mono (h : Effect i s t) (hs : s.nodeIdV = 1) : t.nodeIdV = 1 := by
  cases h with
  | nodeId _ => rfl
  | _ => exact hs

/-- No operation clears LEGACY_V (70_reset_and_hazards.md R240). -/
theorem Effect.legacyV_mono (h : Effect i s t) (hs : s.legacyV = 1) : t.legacyV = 1 := by
  cases h with
  | legacy _ _ => rfl
  | _ => exact hs

end Writers

/-- Settles O45, register by register from the frame of an operation's effect. -/
theorem registersChangeOnlyThroughTheirWriters : Obligations.RegistersChangeOnlyThroughTheirWriters := by
  intro i s t h
  have heff := exec_effect h
  refine ⟨heff.nodeId_kept.resolve_left, heff.legacy_kept.resolve_left, heff.ctr_kept.resolve_left, fun hne => ?_,
    heff.hdr_kept.resolve_left, fun hne => (heff.res_kept_or_written.resolve_left hne).1, fun hne => ?_,
    exec_issues h⟩
  · obtain ⟨htx, hdata⟩ | ⟨_, _, _, _, hkind, _⟩ := heff.frame_kept_or_built
    · exact absurd hne (by simp [htx, hdata])
    · simp [hkind]
  · exact heff.dev_kept.resolve_left (fun ⟨hdev, hdevV⟩ => by simp [hdev, hdevV] at hne)

/-! ### The invariant of reachable states (R39) -/

/-- What the host presents is no part of the invariant. -/
theorem StateInv.of_registers_eq {s t : State} (hs : StateInv s) (he : t.registers = s.registers) : StateInv t := by
  obtain ⟨nodeId, legacy, ctr, tx, txData, hdr, res, dev, devV, status, issues⟩ := s
  obtain ⟨nodeId', legacy', ctr', tx', txData', hdr', res', dev', devV', status', issues'⟩ := t
  cases he
  exact ⟨hs.frameInBounds, hs.frameWritten, hs.noByteWithoutFrame, hs.resultIn16Bits, hs.statusLegal,
    hs.deviceWritten, hs.frameOfConfiguredKind, hs.resetStatusMeansReset, hs.builtOnlyConfigured⟩

/-- Settles O48: with no frame, result or device held, each clause of the invariant is empty or a value of reset. -/
theorem resetMeetsTheInvariant : Obligations.ResetMeetsTheInvariant where
  frameInBounds := fun _ h => nomatch h
  frameWritten := fun _ h => nomatch h
  noByteWithoutFrame := by unfold NoByteWithoutFrame; decide
  resultIn16Bits := fun _ h => nomatch h
  statusLegal := by unfold StatusLegal; decide
  deviceWritten := fun h => nomatch h
  frameOfConfiguredKind := fun _ h => nomatch h
  resetStatusMeansReset := fun _ => rfl
  builtOnlyConfigured := fun _ h => nomatch h

/-- Every kind of frame that an operation builds is a row of R75. -/
theorem builtKind?_mem_builtKinds {p : Priorities} {i : Instr} {k : BitVec 2 × Byte} (h : builtKind? p i = some k) :
    k ∈ builtKinds p := by
  cases i <;> cases h <;> simp [builtKinds]

/-- A state with a node hash has NODE_ID and LEGACY written (60_exceptions.md R217). -/
theorem flags_of_nodeHash_ok {s : State} {a : BitVec 16} (h : nodeHash s = .ok a) :
    s.nodeIdV = 1 ∧ s.legacyV = 1 := by
  unfold nodeHash at h
  split at h
  · next hid hlg => simp [State.nodeIdV, State.legacyV, hid, hlg]
  · cases h

section Preservation

variable {i : Instr} {s t : State}

theorem Effect.frameInBounds_preserved (h : Effect i s t) (hs : FrameInBounds s) : FrameInBounds t := by
  intro f hf
  obtain ⟨htx, -⟩ | ⟨prio, code, a, len, -, -, hlen, htx, -⟩ := h.frame_kept_or_built
  · exact hs f (htx ▸ hf)
  · obtain rfl := Reg.holds.inj (htx.symm.trans hf)
    exact ⟨hlen, packId_extract_high .., packId_extract_status ..⟩

theorem Effect.frameWritten_preserved (h : Effect i s t) (hs : FrameWritten s) : FrameWritten t := by
  intro f hf k hk
  obtain ⟨htx, hdata⟩ | ⟨prio, code, a, len, -, -, -, htx, hbelow⟩ := h.frame_kept_or_built
  · rw [hdata]
    exact hs f (htx ▸ hf) k hk
  · obtain rfl := Reg.holds.inj (htx.symm.trans hf)
    exact hbelow k hk

theorem Effect.noByteWithoutFrame_preserved (h : Effect i s t) (hs : NoByteWithoutFrame s) :
    NoByteWithoutFrame t := by
  intro hun
  obtain ⟨htx, hdata⟩ | ⟨_, _, _, _, -, -, -, htx, -⟩ := h.frame_kept_or_built
  · rw [hdata]
    exact hs (htx ▸ hun)
  · exact nomatch htx.symm.trans hun

theorem Effect.resultIn16Bits_preserved (h : Effect i s t) (hs : ResultIn16Bits s) : ResultIn16Bits t := by
  intro r hr
  obtain hres | ⟨-, v, hres⟩ := h.res_kept_or_written
  · exact hs r (hres ▸ hr)
  · obtain rfl := Reg.holds.inj (hres.symm.trans hr)
    exact extractLsb'_high_setWidth v

theorem Effect.deviceWritten_preserved (h : Effect i s t) (hs : DeviceWritten s) : DeviceWritten t := by
  cases h with
  | device _ => exact fun _ => ⟨_, rfl⟩
  | noDevice _ => exact fun hv => absurd (show (0 : BitVec 1) = 1 from hv) (by decide)
  | _ => exact hs

theorem Effect.frameOfConfiguredKind_preserved (h : Effect i s t) (hs : FrameOfConfiguredKind s) :
    FrameOfConfiguredKind t := by
  intro f hf
  obtain ⟨htx, -⟩ | ⟨prio, code, a, len, hkind, -, -, htx, -⟩ := h.frame_kept_or_built
  · exact hs f (htx ▸ hf)
  · obtain rfl := Reg.holds.inj (htx.symm.trans hf)
    exact ⟨(prio, code), builtKind?_mem_builtKinds hkind, a, rfl⟩

theorem Effect.builtOnlyConfigured_preserved (h : Effect i s t) (hs : BuiltOnlyConfigured s) :
    BuiltOnlyConfigured t := by
  intro f hf
  have hflags : s.nodeIdV = 1 ∧ s.legacyV = 1 := by
    obtain ⟨htx, -⟩ | ⟨_, _, _, _, -, ha, -⟩ := h.frame_kept_or_built
    · exact hs f (htx ▸ hf)
    · exact flags_of_nodeHash_ok ha
  exact ⟨h.nodeIdV_mono hflags.1, h.legacyV_mono hflags.2⟩

/-- Every operation keeps the invariant. -/
theorem Effect.stateInv_preserved (h : Effect i s t) (hs : StateInv s) : StateInv t := by
  obtain ⟨hne5, hne6, hne7⟩ := h.status_ne
  exact {
    frameInBounds := h.frameInBounds_preserved hs.frameInBounds
    frameWritten := h.frameWritten_preserved hs.frameWritten
    noByteWithoutFrame := h.noByteWithoutFrame_preserved hs.noByteWithoutFrame
    resultIn16Bits := h.resultIn16Bits_preserved hs.resultIn16Bits
    statusLegal := ⟨hne5, hne6⟩
    deviceWritten := h.deviceWritten_preserved hs.deviceWritten
    frameOfConfiguredKind := h.frameOfConfiguredKind_preserved hs.frameOfConfiguredKind
    resetStatusMeansReset := fun hst => absurd hst hne7
    builtOnlyConfigured := h.builtOnlyConfigured_preserved hs.builtOnlyConfigured }

end Preservation

/-- A word at the port has the effect of the operation it decodes to; an illegal word ends as a failed operation does,
with ILLEGAL_OP and nothing else written (60_exceptions.md R214). Every operation has that effect, so `.parse`
serves. -/
theorem runWord_effect {w : OpWord} {s t : State} (h : runWord w s = .next t) : ∃ i, Effect i s t := by
  cases hw : decode w with
  | op i => exact ⟨i, exec_effect ((runWord_op hw s).symm.trans h)⟩
  | illegalOp c =>
    cases (runWord_illegal hw s).symm.trans h
    exact ⟨.parse, .failed .illegalOp⟩

/-- Settles O49: what the host presents is no part of the invariant, reset meets it, and every operation keeps it. -/
theorem everyStepKeepsTheInvariant : Obligations.EveryStepKeepsTheInvariant := by
  intro s t hs h
  obtain ⟨-, rfl⟩ | ⟨_, -, rfl⟩ | ⟨w, _, _, u, -, hu, rfl⟩ := step_cases h
  · exact hs
  · exact resetMeetsTheInvariant.of_registers_eq rfl
  · obtain ⟨i, heff⟩ := runWord_effect hu
    exact (heff.stateInv_preserved hs).of_registers_eq rfl

/-! ### The transmitted frame (R27) -/

/-- Registers that all hold a value have a list of values. -/
theorem allValues_of_forall_holds {α : Type} {rs : List (Reg α)} (h : ∀ r ∈ rs, ∃ v, r = .holds v) :
    ∃ vs, allValues rs = some vs ∧ rs = vs.map .holds := by
  induction rs with
  | nil => exact ⟨[], rfl, rfl⟩
  | cons r rs ih =>
    obtain ⟨v, rfl⟩ := h r (by simp)
    obtain ⟨vs, hvs, rfl⟩ := ih (fun r hr => h r (by simp [hr]))
    exact ⟨v :: vs, by simp [allValues, hvs], rfl⟩

/-- The indices below `n`, in ascending order (20_memory.md R52). -/
theorem indicesBelow_eq_take {n : Nat} (hn : n ≤ 8) : indicesBelow n = (List.finRange 8).take n := by
  revert n
  decide

theorem length_indicesBelow {n : Nat} (hn : n ≤ 8) : (indicesBelow n).length = n := by
  simp [indicesBelow_eq_take hn, hn]

theorem indicesBelow_getElem? {n : Nat} (hn : n ≤ 8) {k : Fin 8} (hk : k.val < n) :
    (indicesBelow n)[k.val]? = some k := by
  simp [indicesBelow_eq_take hn, hk]

/-- The TX_DATA registers below a length, in ascending index order: what the transmitted frame is read from. -/
def bytesBelow (d : Vector (Reg Byte) 8) (n : Nat) : List (Reg Byte) := (indicesBelow n).map (fun k => d[k])

theorem transmittedFrame_of_unwritten {s : State} (h : s.tx = .unwritten) : s.transmittedFrame = none := by
  simp only [State.transmittedFrame, h]

theorem transmittedFrame_of_holds {s : State} {h : TxHead} (hs : s.tx = .holds h) :
    s.transmittedFrame =
      (allValues (bytesBelow s.txData h.dlc.toNat)).map
        (fun bytes => { id := h.id, dlc := h.dlc, bytes := bytes }) := by
  simp only [State.transmittedFrame, hs, bytesBelow]

theorem bytesBelow_congr {d e : Vector (Reg Byte) 8} {n : Nat} (h : ∀ k : Fin 8, k.val < n → d[k] = e[k]) :
    bytesBelow d n = bytesBelow e n :=
  List.map_congr_left (fun k hk => h k ((mem_indicesBelow n k).1 hk))

/-- Where every byte below the length is written, the bytes are there, one per index. -/
theorem allValues_bytesBelow {d : Vector (Reg Byte) 8} {n : Nat} (hn : n ≤ 8)
    (hw : ∀ k : Fin 8, k.val < n → ∃ v, d[k] = .holds v) :
    ∃ bytes, allValues (bytesBelow d n) = some bytes ∧ bytes.length = n ∧
      ∀ k : Fin 8, k.val < n → d[k] = .holds (bytes.getD k.val 0) := by
  have hall : ∀ r ∈ bytesBelow d n, ∃ v, r = .holds v := by
    intro r hr
    obtain ⟨k, hk, rfl⟩ := List.mem_map.1 hr
    exact hw k ((mem_indicesBelow n k).1 hk)
  obtain ⟨bytes, hbytes, heq⟩ := allValues_of_forall_holds hall
  have hlen : bytes.length = n := by
    have := congrArg List.length heq
    simpa [bytesBelow, length_indicesBelow hn] using this.symm
  refine ⟨bytes, hbytes, hlen, fun k hk => ?_⟩
  have hget := congrArg (fun rs : List (Reg Byte) => rs[k.val]?) heq
  simpa [bytesBelow, indicesBelow_getElem? hn hk, hlen, hk] using hget

/-- Settles O36: the frame is read from the bytes below TX_DLC, which the invariant has written. -/
theorem transmittedFrameIsTheBytesBelowTheLength : Obligations.TransmittedFrameIsTheBytesBelowTheLength := by
  refine ⟨fun s h hinv hs => ?_, fun s hs => ?_, fun s t h hs ht hagree => ?_⟩
  · obtain ⟨hdlc, -⟩ := hinv.frameInBounds h hs
    obtain ⟨bytes, hbytes, hlen, hget⟩ := allValues_bytesBelow hdlc (hinv.frameWritten h hs)
    exact ⟨_, by rw [transmittedFrame_of_holds hs, hbytes]; rfl, rfl, rfl, hlen, hget⟩
  · exact transmittedFrame_of_unwritten ((Reg.valid_eq_zero s.tx).1 hs)
  · rw [transmittedFrame_of_holds hs, transmittedFrame_of_holds ht, bytesBelow_congr hagree]

/-! ### The output ports (R36) -/

@[simp] theorem underFlag_zero {α : Type} (r : Reg α) : underFlag 0#1 r = .unwritten := rfl

/-- Settles O46: a flag of 0 is an unwritten register, or hides the one it guards. -/
theorem portsShowNoUnwrittenRegister : Obligations.PortsShowNoUnwrittenRegister := by
  refine ⟨fun s hv => ?_, fun s hv => ?_, fun s hv => (Reg.valid_eq_zero s.res).1 hv, fun s hv => ?_,
    fun _ _ _ _ => rfl⟩
  · have htx := (Reg.valid_eq_zero s.tx).1 hv
    simp [State.outputs, htx, hv]
  · have hhdr := (Reg.valid_eq_zero s.hdr).1 hv
    simp [State.outputs, hhdr]
  · simp [State.outputs, hv]

/-! ### What shows of the configuration (R36) -/

/-- `s` with other contents of NODE_ID, LEGACY and CTR. -/
def State.reconfigured (s : State) (n : Reg (BitVec 32)) (l : Reg (BitVec 1)) (c : Reg (BitVec 3)) : State :=
  { s with nodeId := n, legacy := l, ctr := c }

section Reconfigured

variable {s : State} {n : Reg (BitVec 32)} {l : Reg (BitVec 1)} {c : Reg (BitVec 3)}

/-- Two meanings whose results show the same ports end with the same ports. -/
theorem complete_reconfigured {t : State} {r r' : Except Err State} (hr : r'.map State.outputs = r.map State.outputs)
    (h : complete s r = .next t) : ∃ u, complete (s.reconfigured n l c) r' = .next u ∧ u.outputs = t.outputs := by
  cases r with
  | ok v =>
    cases r' with
    | ok u =>
      cases h
      have hports : u.outputs = v.outputs := Except.ok.inj hr
      exact ⟨_, rfl, congrArg (fun o : Outputs => { o with status := statusOk }) hports⟩
    | error _ => exact nomatch hr
  | error e =>
    cases r' with
    | ok _ => exact nomatch hr
    | error _ =>
      cases hr
      cases h
      exact ⟨_, rfl, rfl⟩

/-- A build shows of the configuration only the node hash. -/
theorem buildFrame_reconfigured (hash : nodeHash (s.reconfigured n l c) = nodeHash s) (code : Byte) (prio : BitVec 2)
    (len : BitVec 4) (ws : List ByteWrite) (bc : Bool) :
    (buildFrame code prio len ws bc (s.reconfigured n l c)).map State.outputs =
      (buildFrame code prio len ws bc s).map State.outputs := by
  unfold buildFrame
  rw [hash]
  cases nodeHash s <;> rfl

theorem buildCommand_reconfigured (hash : nodeHash (s.reconfigured n l c) = nodeHash s) (p : Priorities)
    (cmd : LogicalCommand) (m : BitVec 3) :
    (buildCommand p cmd m (s.reconfigured n l c)).map State.outputs =
      (buildCommand p cmd m s).map State.outputs := by
  unfold buildCommand
  cases template? p cmd with
  | none => rfl
  | some t =>
    obtain ⟨code, prio, payload, bc⟩ := t
    cases payload with
    | fixed len ws => exact buildFrame_reconfigured hash ..
    | copied len => exact buildFrame_reconfigured hash ..
    | addressPlusN =>
      by_cases hm : m ≤ 4
      · simp only [if_pos hm]
        exact buildFrame_reconfigured hash ..
      · simp only [if_neg hm]

/-- An operation shows the same under two configurations with the same node hash and CTR_V. -/
theorem exec_reconfigured {i : Instr} {t : State} (hash : nodeHash (s.reconfigured n l c) = nodeHash s)
    (hctr : c.valid = s.ctrV) (h : exec i s = .next t) :
    ∃ u, exec i (s.reconfigured n l c) = .next u ∧ u.outputs = t.outputs := by
  cases i with
  | cfgNodeId | cfgMode _ | ctrWrite _ | hashDerive | hashMix _ _ | parse | reservedBuild _ | buildMfxVerify =>
    cases h
    exact ⟨_, rfl, rfl⟩
  | ctrAdvance =>
    rw [exec_ctrAdvance] at h ⊢
    refine complete_reconfigured ?_ h
    cases hs : s.ctr with
    | unwritten =>
      obtain rfl := (Reg.valid_eq_zero c).1 (hctr.trans ((Reg.valid_eq_zero s.ctr).2 hs))
      rfl
    | holds v =>
      obtain ⟨v', rfl⟩ := (Reg.valid_eq_one c).1 (hctr.trans ((Reg.valid_eq_one s.ctr).2 ⟨v, hs⟩))
      rfl
  | nodeHash =>
    rw [exec_nodeHash] at h ⊢
    refine complete_reconfigured ?_ h
    rw [hash]
    cases nodeHash s <;> rfl
  | classify =>
    rw [exec_classify] at h ⊢
    refine complete_reconfigured ?_ h
    rw [requireLength_map, requireLength_map]
    rfl
  | extractDevice =>
    rw [exec_extractDevice] at h ⊢
    refine complete_reconfigured ?_ h
    rw [requireLength_map, requireLength_map, apply_ite (Except.map _), apply_ite (Except.map _)]
    rfl
  | buildBind => exact complete_reconfigured (buildFrame_reconfigured hash ..) h
  | buildBootloaderStart | buildPing | buildSystemGo | buildSystemHold | buildSystemStop | buildMfxDiscovery
  | buildMfxBind | buildLocoSpeed _ | buildLocoDir _ | buildLocoFunc _ =>
    exact complete_reconfigured (buildCommand_reconfigured hash ..) h

end Reconfigured

/-- Settles O47: the shown results of an operation depend on the configuration through the node hash and CTR_V. -/
theorem configurationShowsOnlyThroughTheNodeHash : Obligations.ConfigurationShowsOnlyThroughTheNodeHash :=
  fun _ _ _ _ _ _ hash hctr h => exec_reconfigured hash hctr h

end Sys2Proof.Machine

/-! The encoding of operation words and identifiers and the assembly text (30_encoding.md): the statements O8 to O11,
O26, O27 and O50. The decoder is shown to be the exact inverse of the encoder; the round trips and the counts of words
follow from that. -/

namespace Sys2Proof.Machine

/-! ### Words and their fields (30_encoding.md R76, R77, R80) -/

/-- A word with RSV = 0 is packed from its other three fields. -/
theorem packWord_wordFields {w : OpWord} (h : wordRsv w = 0) : packWord (wordLg w) (wordArg w) (wordOpc w) = w := by
  have hfields : packWord (wordLg w) (wordArg w) (wordOpc w) = wordRsv w ++ wordLg w ++ wordArg w ++ wordOpc w := by
    rw [h]
    rfl
  rw [hfields]
  unfold wordRsv wordLg wordArg wordOpc
  rw [BitVec.extractLsb'_append_extractLsb'_eq_extractLsb' (start₁ := 11) (len₁ := 1) rfl,
    BitVec.extractLsb'_append_extractLsb'_eq_extractLsb' (start₁ := 8) (len₁ := 3) rfl,
    BitVec.extractLsb'_append_extractLsb'_eq_extractLsb' (start₁ := 0) (len₁ := 8) rfl]
  exact BitVec.extractLsb'_eq_self

/-- The encoder puts each field of an operation where the decoder reads it. -/
theorem encode_fields (i : Instr) : Laws.EncodedFields.Statement i := Laws.EncodedFields.packWord_fields _ _ _

/-- The reserved build codes, one by one. -/
theorem isReservedBuildOpc_iff {opc : Byte} :
    isReservedBuildOpc opc = true ↔ opc = 0x2C ∨ opc = 0x2D ∨ opc = 0x2E ∨ opc = 0x2F := by
  revert opc
  decide

/-! ### The decoder is the inverse of the encoder (R79) -/

/-- The decoder answers every operation of the map on the operation's own fields. -/
theorem decodeOpc_fields {i : Instr} (h : wellFormed i = true) :
    decodeOpc (opcOf i) (argOf i) (lgOf i) = .op i := by
  cases i with
  | reservedBuild opc =>
    obtain rfl | rfl | rfl | rfl := isReservedBuildOpc_iff.1 h <;> rfl
  | _ => rfl

/-- The decoder answers an operation on no other fields than the operation's own. -/
theorem fields_of_decodeOpc {opc : Byte} {arg : BitVec 3} {lg : BitVec 1} {i : Instr}
    (h : decodeOpc opc arg lg = .op i) : opcOf i = opc ∧ argOf i = arg ∧ lgOf i = lg := by
  unfold decodeOpc at h
  split at h <;>
    simp only [withoutFields_eq_op, withLgOnly_eq_op, withArgOnly_eq_op, Decoded.op.injEq, reduceCtorEq] at h
  -- CFG_MODE, CTR_WRITE and BUILD_LOCO_*: one field is the word's, the other is 0.
  case h_2 | h_3 | h_16 | h_17 | h_18 =>
    obtain ⟨rfl, rfl⟩ := h
    exact ⟨rfl, rfl, rfl⟩
  -- HASH_MIX: both fields are the word's.
  case h_6 =>
    subst h
    exact ⟨rfl, rfl, rfl⟩
  -- Every other operation: both fields are 0.
  all_goals
    obtain ⟨rfl, rfl, rfl⟩ := h
    exact ⟨rfl, rfl, rfl⟩

/-- Decoding is the inverse of encoding: a word decodes to an operation where it is the word of that operation, and
nowhere else. -/
theorem decode_eq_op_iff_encode {w : OpWord} {i : Instr} : decode w = .op i ↔ wellFormed i = true ∧ encode i = w := by
  rw [decode_eq_op]
  constructor
  · rintro ⟨hrsv, h⟩
    obtain ⟨hopc, harg, hlg⟩ := fields_of_decodeOpc h
    refine ⟨wellFormed_of_decodeOpc h, ?_⟩
    rw [encode, hopc, harg, hlg, packWord_wordFields hrsv]
  · rintro ⟨hwf, rfl⟩
    obtain ⟨hrsv, hlg, harg, hopc⟩ := encode_fields i
    rw [hlg, harg, hopc]
    exact ⟨hrsv, decodeOpc_fields hwf⟩

/-- Settles O8. -/
theorem decodeOfEncodeIsTheOperation : Obligations.DecodeOfEncodeIsTheOperation :=
  fun _ hwf => decode_eq_op_iff_encode.2 ⟨hwf, rfl⟩

/-- Settles O9. -/
theorem decodedWordsEncodeBack : Obligations.DecodedWordsEncodeBack :=
  fun _ _ hw => decode_eq_op_iff_encode.1 hw

/-- Settles O11: each word is the encoding of its operation. -/
theorem sampleWordsDecode : Obligations.SampleWordsDecode := by
  unfold Obligations.SampleWordsDecode
  simp only [decode_eq_op_iff_encode]
  decide

/-! ### How many words decode to an operation (R79) -/

/-- All values of `n` bits. -/
def allBitVecs (n : Nat) : List (BitVec n) := (List.finRange (2 ^ n)).map BitVec.ofFin

theorem mem_allBitVecs {n : Nat} (x : BitVec n) : x ∈ allBitVecs n :=
  List.mem_map.2 ⟨x.toFin, List.mem_finRange _, rfl⟩

/-- The operations of the map that use neither ARG nor LG, but the reserved build codes. -/
def operationsWithoutFields : List Instr :=
  [.cfgNodeId, .ctrAdvance, .hashDerive, .nodeHash, .buildBootloaderStart, .buildPing, .buildSystemGo,
    .buildSystemHold, .buildSystemStop, .buildMfxDiscovery, .buildMfxBind, .buildMfxVerify, .buildBind, .parse,
    .classify, .extractDevice]

/-- The operations of the map that use ARG or LG, once for each value of the fields. -/
def operationsWithFields : List Instr :=
  [(allBitVecs 1).map Instr.cfgMode, (allBitVecs 3).map Instr.ctrWrite,
    (allBitVecs 3).flatMap (fun ctr => (allBitVecs 1).map (Instr.hashMix ctr)),
    (allBitVecs 3).map Instr.buildLocoSpeed, (allBitVecs 3).map Instr.buildLocoDir,
    (allBitVecs 3).map Instr.buildLocoFunc].flatten

/-- The operations of the map but the reserved build codes. -/
def mappedOperations : List Instr := operationsWithoutFields ++ operationsWithFields

/-- The reserved build codes as operations. -/
def reservedOperations : List Instr := [0x2C, 0x2D, 0x2E, 0x2F].map Instr.reservedBuild

theorem mem_reservedOperations {i : Instr} :
    i ∈ reservedOperations ↔ ∃ opc, i = .reservedBuild opc ∧ isReservedBuildOpc opc = true := by
  simp only [reservedOperations, List.mem_map, isReservedBuildOpc_iff, List.mem_cons, List.not_mem_nil, or_false]
  exact ⟨fun ⟨opc, h, he⟩ => ⟨opc, he.symm, h⟩, fun ⟨opc, he, h⟩ => ⟨opc, h, he.symm⟩⟩

theorem mem_mappedOperations {i : Instr} : i ∈ mappedOperations ↔ ∀ opc, i ≠ .reservedBuild opc := by
  cases i <;> simp [mappedOperations, operationsWithoutFields, operationsWithFields, mem_allBitVecs]

theorem wellFormed_iff_mem {i : Instr} : wellFormed i = true ↔ i ∈ mappedOperations ++ reservedOperations := by
  rw [List.mem_append, mem_mappedOperations, mem_reservedOperations]
  cases i <;> simp [wellFormed]

theorem nodup_operations : (mappedOperations ++ reservedOperations).Nodup := by decide

/-- A kind of word that is the words of the listed operations has as many words as the list has operations: `encode`
gives each operation one word, and no two the same. -/
theorem countP_words {kind : OpWord → Bool} {ops : List Instr} (hnodup : ops.Nodup)
    (hwf : ∀ i ∈ ops, wellFormed i = true) (hkind : ∀ w, kind w = true ↔ ∃ i ∈ ops, decode w = .op i) :
    (List.range 65536).countP (fun n => kind (BitVec.ofNat 16 n)) = ops.length := by
  have hinj : ∀ i ∈ ops, ∀ j ∈ ops, (encode i).toNat = (encode j).toNat → i = j := fun i hi j hj he => by
    have hi' := decodeOfEncodeIsTheOperation i (hwf i hi)
    rw [BitVec.eq_of_toNat_eq he, decodeOfEncodeIsTheOperation j (hwf j hj)] at hi'
    exact (Decoded.op.inj hi').symm
  have hperm : ((List.range 65536).filter (fun n => kind (BitVec.ofNat 16 n))).Perm
      (ops.map (fun i => (encode i).toNat)) := by
    refine (List.perm_ext_iff_of_nodup (List.nodup_range.filter _) (hnodup.map_on hinj)).2 fun n => ?_
    simp only [List.mem_filter, List.mem_range, List.mem_map, hkind, decode_eq_op_iff_encode]
    constructor
    · rintro ⟨hn, i, hi, -, he⟩
      exact ⟨i, hi, by rw [he, BitVec.toNat_ofNat, Nat.mod_eq_of_lt hn]⟩
    · rintro ⟨i, hi, rfl⟩
      exact ⟨(encode i).isLt, i, hi, hwf i hi, BitVec.eq_of_toNat_eq (by simp)⟩
  rw [List.countP_eq_length_filter, hperm.length_eq, List.length_map]

theorem isOperationWord_iff {w : OpWord} : isOperationWord w = true ↔ ∃ i ∈ mappedOperations, decode w = .op i := by
  simp only [mem_mappedOperations]
  unfold isOperationWord
  split <;> simp_all

theorem isReservedBuildWord_iff {w : OpWord} :
    isReservedBuildWord w = true ↔ ∃ i ∈ reservedOperations, decode w = .op i := by
  have hrange : ∀ opc, decode w = .op (.reservedBuild opc) → isReservedBuildOpc opc = true :=
    fun _ h => (decode_eq_op_iff_encode.1 h).1
  simp only [mem_reservedOperations]
  unfold isReservedBuildWord
  split <;> simp_all

theorem not_isIllegalWord_iff {w : OpWord} :
    (!isIllegalWord w) = true ↔ ∃ i ∈ mappedOperations ++ reservedOperations, decode w = .op i := by
  have hwf : ∀ i, decode w = .op i → wellFormed i = true := fun _ h => (decode_eq_op_iff_encode.1 h).1
  simp only [← wellFormed_iff_mem]
  unfold isIllegalWord
  split <;> simp_all

/-- What a list holds besides the elements without `p` are the elements with it. -/
theorem countP_of_countP_not {α : Type} {l : List α} {p : α → Bool} {m n : Nat} (hl : l.length = n + m)
    (hm : l.countP (fun a => !p a) = m) : l.countP p = n := by
  have h := List.length_eq_countP_add_countP p (l := l)
  simp only [Bool.not_eq_true, Bool.decide_eq_false] at h
  omega

theorem length_mappedOperations : mappedOperations.length = 66 := rfl

theorem length_reservedOperations : reservedOperations.length = 4 := rfl

theorem countP_isOperationWord : (List.range 65536).countP (fun n => isOperationWord (BitVec.ofNat 16 n)) = 66 := by
  rw [← length_mappedOperations]
  exact countP_words (kind := isOperationWord) nodup_operations.of_append_left
    (fun i hi => wellFormed_iff_mem.2 (List.mem_append_left _ hi)) (fun w => isOperationWord_iff)

theorem countP_isReservedBuildWord :
    (List.range 65536).countP (fun n => isReservedBuildWord (BitVec.ofNat 16 n)) = 4 := by
  rw [← length_reservedOperations]
  exact countP_words (kind := isReservedBuildWord) nodup_operations.of_append_right
    (fun i hi => wellFormed_iff_mem.2 (List.mem_append_right _ hi)) (fun w => isReservedBuildWord_iff)

theorem countP_not_isIllegalWord :
    (List.range 65536).countP (fun n => !isIllegalWord (BitVec.ofNat 16 n)) = 66 + 4 := by
  rw [← length_mappedOperations, ← length_reservedOperations, ← List.length_append]
  exact countP_words (kind := fun w => !isIllegalWord w) nodup_operations (fun i => wellFormed_iff_mem.2)
    (fun w => not_isIllegalWord_iff)

theorem countP_isIllegalWord : (List.range 65536).countP (fun n => isIllegalWord (BitVec.ofNat 16 n)) = 65466 :=
  countP_of_countP_not List.length_range countP_not_isIllegalWord

/-- Settles O10: the operations of the map are listed and counted, and every other word is illegal. -/
theorem operationWordCounts : Obligations.OperationWordCounts :=
  ⟨countP_isOperationWord, countP_isReservedBuildWord, countP_isIllegalWord⟩

/-! ### Identifiers (30_encoding.md R71 to R73) -/

/-- A packed identifier is the concatenation of its fields. -/
theorem packId_eq_append (p : BitVec 2) (c : Byte) (s : BitVec 1) (a : BitVec 16) :
    packId p c s a = 0b00#2 ++ p ++ c ++ s ++ a := by
  apply BitVec.eq_of_getLsbD_eq
  intro k hk
  have hstatus : k - 16 < 1 ↔ k < 17 := by omega
  have hcode : k - 17 < 8 ↔ k < 25 := by omega
  have hprio : k - 25 < 2 ↔ k < 27 := by omega
  rw [packId_getLsbD p c s a hk]
  simp only [BitVec.getLsbD_append]
  simp only [Nat.sub_sub, Nat.reduceAdd, hstatus, hcode, hprio]
  by_cases hhigh : k < 27
  · rw [if_pos hhigh]
  · rw [if_neg hhigh, BitVec.getLsbD_of_ge p _ (by omega), BitVec.getLsbD_zero]

/-- Concatenation is a sum: the fields do not overlap. -/
theorem toNat_append_eq_add {m n : Nat} (x : BitVec m) (y : BitVec n) : (x ++ y).toNat = x.toNat * 2 ^ n + y.toNat := by
  rw [BitVec.toNat_append, ← Nat.shiftLeft_add_eq_or_of_lt y.isLt, Nat.shiftLeft_eq]

/-- Settles O26. -/
theorem packedIdentifierLayout : Obligations.PackedIdentifierLayout := by
  intro p c s a
  refine ⟨packId_eq_append p c s a, rfl, ?_⟩
  simp only [packId_eq_append, toNat_append_eq_add, BitVec.toNat_ofNat]
  omega

/-- Reading a field of a packed identifier in its 32-bit container. -/
theorem extractLsb'_packId {p : BitVec 2} {c : Byte} {s : BitVec 1} {a : BitVec 16} {i n : Nat} {x : BitVec n}
    (hi : i + n ≤ 29) (h : ∀ k < n, (packId p c s a).getLsbD (i + k) = x.getLsbD k) :
    ((packId p c s a).setWidth 32).extractLsb' i n = x := by
  apply BitVec.eq_of_getLsbD_eq
  intro k hk
  simp [hk, h k hk, show i + k < 32 by omega]

/-- Unpacking gives back the fields that were packed. -/
theorem unpackId_packId (p : BitVec 2) (c : Byte) (s : BitVec 1) (a : BitVec 16) :
    unpackId ((packId p c s a).setWidth 32) = { prio := p, cmd := c, status := s, addr := a } := by
  simp only [unpackId, Header.mk.injEq]
  refine ⟨extractLsb'_packId (by omega) fun k hk => ?_, extractLsb'_packId (by omega) fun k hk => ?_,
    extractLsb'_packId (by omega) fun k hk => ?_, extractLsb'_packId (by omega) fun k hk => ?_⟩ <;>
    rw [packId_getLsbD _ _ _ _ (by omega)]
  · rw [if_neg (by omega), if_neg (by omega), if_neg (by omega), Nat.add_sub_cancel_left]
  · rw [if_neg (by omega), if_neg (by omega), if_pos (by omega), Nat.add_sub_cancel_left]
  · rw [if_neg (by omega), if_pos (by omega), Nat.add_sub_cancel_left]
  · rw [if_pos (by omega), Nat.zero_add]

/-- Settles O27. -/
theorem unpackingUndoesPacking : Obligations.UnpackingUndoesPacking :=
  ⟨fun _ => rfl, fun p c s a => ⟨unpackId_packId p c s a, packId_extract_high p c s a⟩, fun _ _ => unpackId_congr⟩

/-! ### Assembly (30_encoding.md R83, R84) -/

/-- Settles O50 by running the assembler on each line; the buses that the line leaves out stay variable. -/
theorem assemblyExamples : Obligations.AssemblyExamples := fun _ => ⟨rfl, rfl, rfl, rfl, rfl⟩

end Sys2Proof.Machine

/-! The encoder operations (40_encoder.md): the statements O28 to O35. First the words of an operation code and what a
configured state is, then what a build writes, given once for every build; the statements about the single operations
are read off from that. -/

namespace Sys2Proof.Machine

/-! ### The words of an operation code (30_encoding.md R76 to R79) -/

theorem isIllegalWord_of_forall_ne {w : OpWord} (h : ∀ i, decode w ≠ .op i) : isIllegalWord w = true := by
  unfold isIllegalWord
  split
  · next i hi => exact absurd hi (h i)
  · rfl

/-- The words of an operation code are those of `op` where the decoder answers `op` on the fields that it accepts and
nothing on others. -/
theorem wordsAre_of_decodeOpc_iff {opc : Byte} {usesArg usesLg : Bool} {op : BitVec 3 → BitVec 1 → Instr}
    (h : ∀ arg lg i, decodeOpc opc arg lg = .op i ↔
      (usesArg = true ∨ arg = 0) ∧ (usesLg = true ∨ lg = 0) ∧ op arg lg = i) : WordsAre opc usesArg usesLg op := by
  rintro w rfl
  split_ifs with hfields
  · obtain ⟨hrsv, harg, hlg⟩ := hfields
    exact decode_eq_op.2 ⟨hrsv, (h _ _ _).2 ⟨harg, hlg, rfl⟩⟩
  · refine isIllegalWord_of_forall_ne fun i hi => hfields ?_
    obtain ⟨hrsv, hopc⟩ := decode_eq_op.1 hi
    obtain ⟨harg, hlg, -⟩ := (h _ _ _).1 hopc
    exact ⟨hrsv, harg, hlg⟩

theorem wordsAre_withoutFields {opc : Byte} {i : Instr} (h : ∀ arg lg, decodeOpc opc arg lg = withoutFields arg lg i) :
    WordsAre opc false false (fun _ _ => i) :=
  wordsAre_of_decodeOpc_iff fun arg lg j => by simp [h, withoutFields_eq_op]

theorem wordsAre_withArgOnly {opc : Byte} {op : BitVec 3 → Instr}
    (h : ∀ arg lg, decodeOpc opc arg lg = withArgOnly lg (op arg)) : WordsAre opc true false (fun arg _ => op arg) :=
  wordsAre_of_decodeOpc_iff fun arg lg j => by simp [h, withArgOnly_eq_op]

/-- With LG = 0, the operation word is OPC with ARG shifted to bits 10:8. -/
theorem packWord_zero_eq_or (arg : BitVec 3) (opc : Byte) :
    packWord 0 arg opc = opc.setWidth 16 ||| (arg.setWidth 16 <<< 8) := by
  apply BitVec.eq_of_getLsbD_eq
  intro k hk
  simp only [packWord, BitVec.getLsbD_append, BitVec.getLsbD_or, BitVec.getLsbD_shiftLeft, BitVec.getLsbD_setWidth]
  interval_cases k <;> simp

/-! ### Configured states (42_identity_hash.md R173, 60_exceptions.md R217) -/

/-- A state has a node hash exactly where it is configured. -/
theorem configured_iff_nodeHash {s : State} : Configured s ↔ ∃ a, nodeHash s = .ok a := by
  unfold Configured nodeHash State.nodeIdV State.legacyV State.ctrV
  cases s.nodeId with
  | unwritten => simp
  | holds id =>
    cases s.legacy with
    | unwritten => simp
    | holds lg =>
      by_cases hlg : lg = 1#1
      · simp [hlg]
      · cases s.ctr <;> simp [hlg]

theorem nodeHash_of_not_configured {s : State} (h : ¬ Configured s) : nodeHash s = .error .unconfigured := by
  cases hn : nodeHash s with
  | ok a => exact absurd (configured_iff_nodeHash.2 ⟨a, hn⟩) h
  | error e => rw [nodeHash_error hn]

/-! ### What a build writes (40_encoder.md R100 to R102) -/

/-- The writes `ws`, followed by the broadcast fill where `bc` is set, give every byte the value that `named` names for
it, and keep each byte for which it names none. -/
def WritesNamed (ws : List ByteWrite) (bc : Bool) (named : Fin 8 → Option Byte) : Prop :=
  ∀ (d : Vector (Reg Byte) 8) (k : Fin 8), (builtData d ws bc)[k] = (named k).elim d[k] .holds

theorem writesNamed_broadcast (b4 : Byte) : WritesNamed [(4, b4)] true (broadcastBytes b4) := by
  intro d k
  rw [builtData_true]
  fin_cases k <;> simp [broadcastBytes]

theorem writesNamed_none : WritesNamed [] false (fun _ => none) := fun _ _ => rfl

theorem writesNamed_first (b0 : Byte) :
    WritesNamed [(0, b0)] false (fun k => if k.val = 0 then some b0 else none) := by
  intro d k
  fin_cases k <;> simp

theorem writesNamed_copiedBytes (opd : Payload) (n : Nat) :
    WritesNamed (copiedBytes opd n) false (bytesFromOpd opd n) := by
  intro d k
  rw [builtData_false, writeBytes_copiedBytes, bytesFromOpd]
  split_ifs <;> rfl

theorem writesNamed_bind (opd : Payload) (address : Byte) :
    WritesNamed [(0, opd[0]), (1, opd[1]), (2, opd[2]), (3, opd[3]), (4, 0x00), (5, address)] false
      (bindBytes opd address) := by
  intro d k
  fin_cases k <;> simp [bindBytes]

section BuildFrame

variable {i : Instr} {s : State} {code : Byte} {prio : BitVec 2} {len : BitVec 4} {ws : List ByteWrite} {bc : Bool}

/-- An operation that ends as `buildFrame` does builds that frame, where the state has a node hash. -/
theorem buildsFrame_of_nodeHash {a : BitVec 16} {named : Fin 8 → Option Byte} (ha : nodeHash s = .ok a)
    (hexec : exec i s = complete s (buildFrame code prio len ws bc s)) (hws : WritesNamed ws bc named) :
    BuildsFrame i s (packId prio code 0 a) len named := by
  refine ⟨builtData s.txData ws bc, fun k => ?_, ?_⟩
  · rw [hws]
    cases named k <;> rfl
  · rw [hexec, buildFrame_of_nodeHash ha]
    rfl

/-- Without configuration such an operation writes STATUS = 4 only. -/
theorem endsUnconfigured_of_not_configured (hs : ¬ Configured s)
    (hexec : exec i s = complete s (buildFrame code prio len ws bc s)) : EndsWithError i s 4 := by
  rw [EndsWithError, hexec, buildFrame, nodeHash_of_not_configured hs]
  rfl

end BuildFrame

section LocoBuild

variable {i : Instr} {s : State} {cmd : LogicalCommand} {n : BitVec 3} {code : Byte} {prio : BitVec 2}

/-- A loco-control build with N at most 4 copies 4 + N bytes of opd (R111). -/
theorem exec_locoBuild_of_le (hn : n.toNat ≤ 4) (hexec : exec i s = complete s (buildCommand Config.prio cmd n s))
    (ht : template? Config.prio cmd = some ⟨code, prio, .addressPlusN, false⟩) :
    exec i s = complete s
      (buildFrame code prio (BitVec.ofNat 4 (4 + n.toNat)) (copiedBytes s.buses.opd (4 + n.toNat)) false s) := by
  have hle : n ≤ 4 := hn
  have hlen : (4 + n.setWidth 4 : BitVec 4) = BitVec.ofNat 4 (4 + n.toNat) := by
    rw [← locoLength_toNat hle, BitVec.ofNat_toNat, BitVec.setWidth_eq]
  simp only [hexec, buildCommand, ht, if_pos hle, hlen]

/-- A loco-control build with N above 4 ends with BAD_LENGTH, configured or not (60_exceptions.md R216, R218). -/
theorem endsBadLength_of_locoBuild (hn : 4 < n.toNat)
    (hexec : exec i s = complete s (buildCommand Config.prio cmd n s))
    (ht : template? Config.prio cmd = some ⟨code, prio, .addressPlusN, false⟩) : EndsWithError i s 3 := by
  have hgt : ¬ n ≤ 4 := Nat.not_le.2 hn
  simp only [EndsWithError, hexec, buildCommand, ht, if_neg hgt]
  rfl

end LocoBuild

/-! ### The builds, operation by operation -/

/-- Settles O28: each of the four is `buildFrame` with byte 4 of its own and the broadcast fill. -/
theorem broadcastBuildsWriteTheirFrames : Obligations.BroadcastBuildsWriteTheirFrames := by
  refine ⟨rfl, rfl, rfl, rfl, wordsAre_withoutFields fun _ _ => rfl, wordsAre_withoutFields fun _ _ => rfl,
    wordsAre_withoutFields fun _ _ => rfl, wordsAre_withoutFields fun _ _ => rfl, fun s => ⟨fun hs => ?_, fun hs => ?_⟩⟩
  · obtain ⟨a, ha⟩ := configured_iff_nodeHash.1 hs
    exact ⟨a, ha, buildsFrame_of_nodeHash ha rfl (writesNamed_broadcast _),
      buildsFrame_of_nodeHash ha rfl (writesNamed_broadcast _),
      buildsFrame_of_nodeHash ha rfl (writesNamed_broadcast _),
      buildsFrame_of_nodeHash ha rfl (writesNamed_broadcast _)⟩
  · exact ⟨endsUnconfigured_of_not_configured hs rfl, endsUnconfigured_of_not_configured hs rfl,
      endsUnconfigured_of_not_configured hs rfl, endsUnconfigured_of_not_configured hs rfl⟩

/-- Settles O29: neither build runs the broadcast fill, so only the named bytes are written. -/
theorem pingAndDiscoveryBuildsWriteTheirFrames : Obligations.PingAndDiscoveryBuildsWriteTheirFrames := by
  refine ⟨rfl, rfl, wordsAre_withoutFields fun _ _ => rfl, wordsAre_withoutFields fun _ _ => rfl,
    fun s => ⟨fun hs => ?_, fun hs => ?_⟩⟩
  · obtain ⟨a, ha⟩ := configured_iff_nodeHash.1 hs
    exact ⟨a, ha, buildsFrame_of_nodeHash ha rfl writesNamed_none,
      buildsFrame_of_nodeHash ha rfl (writesNamed_first _)⟩
  · exact ⟨endsUnconfigured_of_not_configured hs rfl, endsUnconfigured_of_not_configured hs rfl⟩

/-- Settles O30: one build copies six bytes of opd, the other takes bytes 4 and 5 from elsewhere. -/
theorem bindBuildsWriteTheirFrames : Obligations.BindBuildsWriteTheirFrames := by
  refine ⟨rfl, rfl, wordsAre_withoutFields fun _ _ => rfl, wordsAre_withoutFields fun _ _ => rfl,
    fun s => ⟨fun hs => ?_, fun hs => ?_⟩⟩
  · obtain ⟨a, ha⟩ := configured_iff_nodeHash.1 hs
    exact ⟨a, ha, buildsFrame_of_nodeHash ha rfl (writesNamed_copiedBytes _ _),
      buildsFrame_of_nodeHash ha rfl (writesNamed_bind _ _)⟩
  · exact ⟨endsUnconfigured_of_not_configured hs rfl, endsUnconfigured_of_not_configured hs rfl⟩

/-- Settles O31: the length check comes first, and the three operations differ in their template row only. -/
theorem locoBuildsWriteTheirFrames : Obligations.LocoBuildsWriteTheirFrames := by
  refine ⟨fun n => ?_, wordsAre_withArgOnly fun _ _ => rfl, wordsAre_withArgOnly fun _ _ => rfl,
    wordsAre_withArgOnly fun _ _ => rfl, fun s n => ⟨fun hn hs => ?_, fun hn hs => ?_, fun hn => ?_⟩⟩
  · exact ⟨decode_eq_op_iff_encode.2 ⟨rfl, packWord_zero_eq_or n 0x28⟩,
      decode_eq_op_iff_encode.2 ⟨rfl, packWord_zero_eq_or n 0x29⟩,
      decode_eq_op_iff_encode.2 ⟨rfl, packWord_zero_eq_or n 0x2A⟩⟩
  · obtain ⟨a, ha⟩ := configured_iff_nodeHash.1 hs
    have hws := writesNamed_copiedBytes s.buses.opd (4 + n.toNat)
    exact ⟨a, ha, buildsFrame_of_nodeHash ha (exec_locoBuild_of_le hn (exec_buildLocoSpeed n s) rfl) hws,
      buildsFrame_of_nodeHash ha (exec_locoBuild_of_le hn (exec_buildLocoDir n s) rfl) hws,
      buildsFrame_of_nodeHash ha (exec_locoBuild_of_le hn (exec_buildLocoFunc n s) rfl) hws⟩
  · exact ⟨endsUnconfigured_of_not_configured hs (exec_locoBuild_of_le hn (exec_buildLocoSpeed n s) rfl),
      endsUnconfigured_of_not_configured hs (exec_locoBuild_of_le hn (exec_buildLocoDir n s) rfl),
      endsUnconfigured_of_not_configured hs (exec_locoBuild_of_le hn (exec_buildLocoFunc n s) rfl)⟩
  · exact ⟨endsBadLength_of_locoBuild hn (exec_buildLocoSpeed n s) rfl,
      endsBadLength_of_locoBuild hn (exec_buildLocoDir n s) rfl,
      endsBadLength_of_locoBuild hn (exec_buildLocoFunc n s) rfl⟩

/-- The words of a reserved build code are that code and nothing else (30_encoding.md R80). -/
theorem wordsAre_reservedBuild {opc : Byte} (h : isReservedBuildOpc opc = true) :
    WordsAre opc false false (fun _ _ => .reservedBuild opc) := by
  obtain rfl | rfl | rfl | rfl := isReservedBuildOpc_iff.1 h <;> exact wordsAre_withoutFields fun _ _ => rfl

/-- Settles O32: no template row and no reserved code reaches `buildFrame`, so no state matters. -/
theorem commandsWithoutTemplateRaiseUnknownCommand : Obligations.CommandsWithoutTemplateRaiseUnknownCommand := by
  refine ⟨rfl, rfl, rfl, rfl, rfl, wordsAre_withoutFields fun _ _ => rfl, fun opc hlow hhigh => ?_,
    fun s => ⟨exec_buildMfxVerify s, fun opc => exec_reservedBuild opc s⟩⟩
  exact wordsAre_reservedBuild (Bool.and_eq_true_iff.2 ⟨decide_eq_true hlow, decide_eq_true hhigh⟩)

/-! ### What holds of every build (R117, R118, R102) -/

theorem builtKind?_of_writesRes {p : Priorities} {i : Instr} (h : writesRes i = true) : builtKind? p i = none := by
  cases i with
  | hashDerive | hashMix _ _ | nodeHash | classify => rfl
  | _ => cases h

section BuildEffect

variable {i : Instr} {s t : State}

/-- A frame-building operation that ends with OK has built a frame of its kind. -/
theorem Effect.built_of_status_ok (h : Effect i s t) (hi : (builtKind? Config.prio i).isSome = true)
    (hst : t.status = statusOk) :
    ∃ prio code a len, builtKind? Config.prio i = some (prio, code) ∧ nodeHash s = .ok a ∧ len.toNat ≤ 8 ∧
      t.tx = .holds ⟨packId prio code requestBit a, len⟩ ∧
      ∀ k : Fin 8, k.val < len.toNat → ∃ v, t.txData[k] = .holds v := by
  cases h with
  | frame prio code a len d hkind ha hlen hbelow _ => exact ⟨prio, code, a, len, hkind, ha, hlen, rfl, hbelow⟩
  | failed e => exact absurd hst e.code_ne_statusOk
  | result v hres => simp [builtKind?_of_writesRes hres] at hi
  | ctr c hctr => obtain rfl | ⟨rfl, -⟩ := hctr <;> cases hi
  | nodeId hop | legacy _ hop | header hop | device hop | noDevice hop => subst hop; cases hi

/-- The bytes at or above TX_DLC are kept (R102); where no frame is held, every byte is. -/
theorem Effect.txData_kept_above (h : Effect i s t) {k : Fin 8} (hk : ∀ f, t.tx = .holds f → f.dlc.toNat ≤ k.val) :
    t.txData[k] = s.txData[k] := by
  cases h with
  | frame _ _ _ _ _ _ _ _ _ habove => exact habove k (hk _ rfl)
  | _ => rfl

/-- A frame that is new, or that a frame-building operation leaves with OK, is a request of that operation's kind. -/
theorem Effect.request_of_built {f : TxHead} (h : Effect i s t) (hf : t.tx = .holds f)
    (hbuilt : t.tx ≠ s.tx ∨ (builtKind? Config.prio i).isSome = true ∧ t.status = statusOk) :
    ∃ prio code a, builtKind? Config.prio i = some (prio, code) ∧ f.id = packId prio code requestBit a := by
  have hframe : ∃ prio code a len, builtKind? Config.prio i = some (prio, code) ∧
      t.tx = .holds ⟨packId prio code requestBit a, len⟩ := by
    obtain hne | ⟨hi, hst⟩ := hbuilt
    · obtain ⟨htx, -⟩ | ⟨prio, code, a, len, hkind, -, -, htx, -⟩ := h.frame_kept_or_built
      · exact absurd htx hne
      · exact ⟨prio, code, a, len, hkind, htx⟩
    · obtain ⟨prio, code, a, len, hkind, -, -, htx, -⟩ := h.built_of_status_ok hi hst
      exact ⟨prio, code, a, len, hkind, htx⟩
  obtain ⟨prio, code, a, len, hkind, htx⟩ := hframe
  obtain rfl := Reg.holds.inj (htx.symm.trans hf)
  exact ⟨prio, code, a, hkind, rfl⟩

end BuildEffect

/-- Settles O33: unpacking undoes the packing of the build. -/
theorem builtIdentifiersParseBack : Obligations.BuiltIdentifiersParseBack := by
  intro i s t p c hi h hst
  obtain ⟨_, _, a, _, hkind, ha, -, htx, -⟩ := (exec_effect h).built_of_status_ok (by rw [hi]; rfl) hst
  cases hi.symm.trans hkind
  refine ⟨_, a, ha, htx, unpackId_packId .., fun u hu => ?_⟩
  rw [CompletesWith, exec_parse, hu, unpackId_packId]
  rfl

/-- Settles O34: the identifier of a build is packed as a request of the operation's kind. -/
theorem onlyConfiguredRequestsAreBuilt : Obligations.OnlyConfiguredRequestsAreBuilt := by
  intro i s t f h hf hbuilt
  obtain ⟨prio, code, a, hkind, hid⟩ := (exec_effect h).request_of_built hf hbuilt
  have hfields := unpackId_packId prio code requestBit a
  simp only [unpackId, Header.mk.injEq, BitVec.extractLsb'_setWidth_of_le, Nat.reduceAdd,
    Nat.reduceLeDiff] at hfields
  obtain ⟨hprio, hcmd, hstatus, -⟩ := hfields
  rw [hid]
  exact ⟨hstatus, packId_extract_high .., _, hkind, hprio, hcmd⟩

/-- Settles O35: what is at or above the length is kept, and a build writes what is below it. -/
theorem bytesAtOrAboveTheLengthAreKept : Obligations.BytesAtOrAboveTheLengthAreKept := by
  intro i s t h
  refine ⟨fun k hk => (exec_effect h).txData_kept_above hk, fun hi hst => ?_⟩
  obtain ⟨_, _, _, _, -, -, hlen, htx, hbelow⟩ := (exec_effect h).built_of_status_ok hi hst
  exact ⟨_, htx, hlen, hbelow⟩

end Sys2Proof.Machine

/-! The decoder operations (41_decoder.md): the statements O37 to O41. First the classification, one equation per branch
of R144, and the shared length check; then the three operations, and what they share. -/

namespace Sys2Proof.Machine

/-! ### The class of a frame (R143, R144) -/

section ClassifyFrame

variable {x : RawId} {len : BitVec 4}

theorem classifyFrame_pingRequest (hcmd : x.extractLsb' 17 8 = 0x18) (hstatus : x.extractLsb' 16 1 = 0) :
    classifyFrame x len = 1 := by
  simp [classifyFrame, unpackId, hcmd, hstatus]

theorem classifyFrame_pingResponse (hcmd : x.extractLsb' 17 8 = 0x18) (hstatus : x.extractLsb' 16 1 = 1) :
    classifyFrame x len = if len.toNat = 8 then 2 else 3 := by
  simp [classifyFrame, unpackId, hcmd, hstatus, BitVec.toNat_eq]

theorem classifyFrame_discoveryRequest (hcmd : x.extractLsb' 17 8 = 0x01) (hstatus : x.extractLsb' 16 1 = 0) :
    classifyFrame x len = 4 := by
  simp [classifyFrame, unpackId, hcmd, hstatus]

theorem classifyFrame_discoveryResponse (hcmd : x.extractLsb' 17 8 = 0x01) (hstatus : x.extractLsb' 16 1 = 1) :
    classifyFrame x len =
      if len.toNat = 0 then 5 else if len.toNat = 5 then 6 else if 7 ≤ len.toNat then 7 else 8 := by
  simp [classifyFrame, unpackId, hcmd, hstatus, BitVec.toNat_eq, BitVec.le_def]

theorem classifyFrame_bindRequest (hcmd : x.extractLsb' 17 8 = 0x02) (hstatus : x.extractLsb' 16 1 = 0) :
    classifyFrame x len = 9 := by
  simp [classifyFrame, unpackId, hcmd, hstatus]

theorem classifyFrame_bindResponse (hcmd : x.extractLsb' 17 8 = 0x02) (hstatus : x.extractLsb' 16 1 = 1) :
    classifyFrame x len = 10 := by
  simp [classifyFrame, unpackId, hcmd, hstatus]

theorem classifyFrame_unrecognized (hping : x.extractLsb' 17 8 ≠ 0x18) (hdiscovery : x.extractLsb' 17 8 ≠ 0x01)
    (hbind : x.extractLsb' 17 8 ≠ 0x02) : classifyFrame x len = 0 := by
  unfold classifyFrame
  split
  case h_1 hcmd _ | h_2 hcmd _ => exact absurd hcmd hping
  case h_3 hcmd _ | h_4 hcmd _ => exact absurd hcmd hdiscovery
  case h_5 hcmd _ | h_6 hcmd _ => exact absurd hcmd hbind
  case h_7 => rfl

theorem classifyFrame_toNat_le : (classifyFrame x len).toNat ≤ 10 := by
  unfold classifyFrame
  split
  case h_2 | h_4 => split_ifs <;> decide
  all_goals decide

/-- The class PING_RESP_DEVICE is that of the Ping responses of length 8, and of no other frame. -/
theorem classifyFrame_eq_classPingRespDevice_iff :
    classifyFrame x len = classPingRespDevice ↔
      len.toNat = 8 ∧ x.extractLsb' 17 8 = 0x18 ∧ x.extractLsb' 16 1 = 1 := by
  constructor
  · intro h
    unfold classifyFrame at h
    split at h
    case h_2 hcmd hstatus =>
      split_ifs at h with hlen
      · exact ⟨congrArg BitVec.toNat hlen, hcmd, hstatus⟩
      · exact absurd h (by decide)
    case h_4 => split_ifs at h <;> exact absurd h (by decide)
    all_goals exact absurd h (by decide)
  · rintro ⟨hlen, hcmd, hstatus⟩
    rw [classifyFrame_pingResponse hcmd hstatus, if_pos hlen]
    rfl

end ClassifyFrame

/-- Settles O38: each clause is one equation of the classification, and the lengths are told apart where it asks. -/
theorem classOfEveryFrame : Obligations.ClassOfEveryFrame := by
  intro x len _
  refine ⟨classifyFrame_pingRequest, fun hcmd hst hlen => ?_, fun hcmd hst hlen => ?_, classifyFrame_discoveryRequest,
    fun hcmd hst hlen => ?_, fun hcmd hst hlen => ?_, fun hcmd hst hlen => ?_, fun hcmd hst hlen => ?_,
    classifyFrame_bindRequest, classifyFrame_bindResponse, classifyFrame_unrecognized, classifyFrame_toNat_le⟩
  · rw [classifyFrame_pingResponse hcmd hst, if_pos hlen]
  · rw [classifyFrame_pingResponse hcmd hst, if_neg hlen]
  · rw [classifyFrame_discoveryResponse hcmd hst, if_pos hlen]
  · rw [classifyFrame_discoveryResponse hcmd hst, if_neg (by omega), if_pos hlen]
  · rw [classifyFrame_discoveryResponse hcmd hst, if_neg (by omega), if_neg (by omega), if_pos hlen]
  · rw [classifyFrame_discoveryResponse hcmd hst, if_neg (by omega), if_neg (by omega), if_neg (by omega)]

/-! ### The length check (R145, R147) -/

section CheckedLength

variable {i : Instr} {s : State} {r : Except Err State}

/-- An operation that checks opl first ends as the rest of it does, where opl is a length of a frame. -/
theorem exec_of_length_le (hlen : s.buses.opl.toNat ≤ 8) (hexec : exec i s = complete s (requireLength s.buses.opl r)) :
    exec i s = complete s r := by
  rw [hexec, requireLength_of_le r hlen]

/-- Where opl is no length of a frame, it writes STATUS = 3 only. -/
theorem endsBadLength_of_length_gt (hlen : 8 < s.buses.opl.toNat)
    (hexec : exec i s = complete s (requireLength s.buses.opl r)) : EndsWithError i s 3 := by
  rw [EndsWithError, hexec, requireLength_of_gt r (Nat.not_le.2 hlen)]
  rfl

end CheckedLength

/-! ### The operations -/

/-- Settles O37: PARSE unpacks whatever opa carries. -/
theorem parseSplitsTheIdentifier : Obligations.ParseSplitsTheIdentifier :=
  ⟨rfl, wordsAre_withoutFields fun _ _ => rfl, exec_parse⟩

/-- Settles O39. -/
theorem classifyWritesTheClass : Obligations.ClassifyWritesTheClass :=
  ⟨rfl, wordsAre_withoutFields fun _ _ => rfl, fun s =>
    ⟨fun hlen => exec_of_length_le hlen (exec_classify s), fun hlen => endsBadLength_of_length_gt hlen (exec_classify s)⟩⟩

theorem bigEndian16_toNat (b0 b1 : Byte) : (bigEndian16 b0 b1).toNat = b0.toNat * 2 ^ 8 + b1.toNat :=
  toNat_append_eq_add b0 b1

theorem bigEndian32_toNat (b0 b1 b2 b3 : Byte) :
    (bigEndian32 b0 b1 b2 b3).toNat = b0.toNat * 2 ^ 24 + b1.toNat * 2 ^ 16 + b2.toNat * 2 ^ 8 + b3.toNat := by
  simp only [bigEndian32, toNat_append_eq_add]
  omega

/-- Settles O40: whether there is a Device is the class of the frame, once the length is checked. -/
theorem extractDeviceReadsThePingResponse : Obligations.ExtractDeviceReadsThePingResponse := by
  refine ⟨rfl, wordsAre_withoutFields fun _ _ => rfl, fun s => ⟨fun hlen hcmd hstatus => ?_, fun hlen hother => ?_,
    fun hlen => endsBadLength_of_length_gt hlen (exec_extractDevice s)⟩⟩
  · refine ⟨deviceOf s.buses.opd, bigEndian32_toNat .., bigEndian16_toNat .., ?_⟩
    rw [CompletesWith, exec_of_length_le hlen.le (exec_extractDevice s),
      if_pos (classifyFrame_eq_classPingRespDevice_iff.2 ⟨hlen, hcmd, hstatus⟩)]
    rfl
  · rw [CompletesWith, exec_of_length_le hlen (exec_extractDevice s),
      if_neg (mt classifyFrame_eq_classPingRespDevice_iff.1 hother)]
    rfl

/-! ### The decoder operations and the configuration (R140) -/

section Configuration

variable {i : Instr} {s t : State} {n : Reg (BitVec 32)} {l : Reg (BitVec 1)} {c : Reg (BitVec 3)}

/-- A meaning whose results carry other contents of NODE_ID, LEGACY and CTR along ends with them carried along. -/
theorem complete_map_reconfigured {r r' : Except Err State} (hr : r' = r.map (State.reconfigured · n l c))
    (h : complete s r = .next t) : complete (s.reconfigured n l c) r' = .next (t.reconfigured n l c) := by
  subst hr
  obtain ⟨u, rfl, rfl⟩ | ⟨e, rfl, rfl⟩ := complete_next h <;> rfl

/-- A decoder operation ends with OK or with BAD_LENGTH. -/
theorem status_of_decoder (hi : i = .parse ∨ i = .classify ∨ i = .extractDevice) (h : exec i s = .next t) :
    t.status = statusOk ∨ t.status = Err.badLength.code := by
  obtain rfl | rfl | rfl := hi
  · cases h
    exact .inl rfl
  · rw [exec_classify, requireLength] at h
    split_ifs at h <;> cases h
    · exact .inl rfl
    · exact .inr rfl
  · rw [exec_extractDevice, requireLength] at h
    split_ifs at h <;> cases h
    · exact .inl rfl
    · exact .inl rfl
    · exact .inr rfl

/-- A decoder operation carries NODE_ID, LEGACY and CTR along unread. -/
theorem exec_decoder_reconfigured (hi : i = .parse ∨ i = .classify ∨ i = .extractDevice) (h : exec i s = .next t) :
    exec i (s.reconfigured n l c) = .next (t.reconfigured n l c) := by
  obtain rfl | rfl | rfl := hi
  · rw [exec_parse] at h ⊢
    exact complete_map_reconfigured rfl h
  · rw [exec_classify] at h ⊢
    refine complete_map_reconfigured ?_ h
    rw [requireLength_map]
    rfl
  · rw [exec_extractDevice] at h ⊢
    refine complete_map_reconfigured ?_ h
    rw [requireLength_map, apply_ite (Except.map _)]
    rfl

end Configuration

/-- Settles O41: the only error left is BAD_LENGTH. -/
theorem decodersNeedNoConfiguration : Obligations.DecodersNeedNoConfiguration := by
  intro i s t n l c hi h
  refine ⟨?_, exec_decoder_reconfigured hi h⟩
  obtain hst | hst := status_of_decoder hi h <;> rw [hst] <;> decide

end Sys2Proof.Machine

/-! The identity hash (42_identity_hash.md): the statements O19 to O25. A 16-bit hash is its fields 15:10, 9:7 and 6:0;
both formulas of `mixCounter` are shown to replace the middle one, and the laws follow from that. Then the node hash of
the block's own state and the three operations. -/

namespace Sys2Proof.Machine

/-! ### The fields of a hash -/

/-- A hash is its three fields. -/
theorem append_hashFields (h : BitVec 16) : h.extractLsb' 10 6 ++ h.extractLsb' 7 3 ++ h.extractLsb' 0 7 = h := by
  rw [BitVec.extractLsb'_append_extractLsb'_eq_extractLsb' (start₁ := 7) (len₁ := 3) rfl,
    BitVec.extractLsb'_append_extractLsb'_eq_extractLsb' (start₁ := 0) (len₁ := 7) rfl]
  exact BitVec.extractLsb'_eq_self

section HashFields

variable (a : BitVec 6) (c : BitVec 3) (b : BitVec 7)

theorem extractLsb'_hash_high : (a ++ c ++ b).extractLsb' 10 6 = a := by
  rw [BitVec.extractLsb'_append_eq_of_le (by decide)]
  exact BitVec.extractLsb'_append_eq_left

theorem extractLsb'_hash_counter : (a ++ c ++ b).extractLsb' 7 3 = c := by
  rw [BitVec.extractLsb'_append_eq_of_le (by decide)]
  exact BitVec.extractLsb'_append_eq_right

theorem extractLsb'_hash_low : (a ++ c ++ b).extractLsb' 0 7 = b := BitVec.extractLsb'_append_eq_right

end HashFields

/-- A mask and a value that touch no bit but 9:7 act on that field alone. -/
theorem mask_or_counterBits (h : BitVec 16) (mask value : BitVec 3) :
    (h &&& (0b111111#6 ++ mask ++ 0b1111111#7)) ||| (0#6 ++ value ++ 0#7) =
      h.extractLsb' 10 6 ++ ((h.extractLsb' 7 3 &&& mask) ||| value) ++ h.extractLsb' 0 7 := by
  have hfields (a : BitVec 6) (x : BitVec 3) (b : BitVec 7) :
      ((a ++ x ++ b) &&& (BitVec.allOnes 6 ++ mask ++ BitVec.allOnes 7)) ||| (0#6 ++ value ++ 0#7) =
        a ++ ((x &&& mask) ||| value) ++ b := by
    simp only [BitVec.and_append, BitVec.or_append, BitVec.and_allOnes, BitVec.or_zero]
  have hword := hfields (h.extractLsb' 10 6) (h.extractLsb' 7 3) (h.extractLsb' 0 7)
  rw [append_hashFields] at hword
  exact hword

/-! ### mixCounter (R171, R172) -/

/-- What `mixCounter` writes to bits 9:7: the counter, or the legacy marker. -/
def mixedCounter (c : BitVec 3) (legacy : BitVec 1) : BitVec 3 := if legacy = 1 then 0b110 else c

@[simp] theorem mixedCounter_counterMode (c : BitVec 3) : mixedCounter c 0 = c := rfl

@[simp] theorem mixedCounter_legacy (c : BitVec 3) : mixedCounter c 1 = 0b110 := rfl

theorem shiftLeft_counter_eq_append (c : BitVec 3) : c.setWidth 16 <<< 7 = 0#6 ++ c ++ 0#7 := by
  revert c
  decide

/-- Clearing bit 7 and setting bits 9 and 8 makes every field 0b110. -/
theorem legacyMarker_eq (x : BitVec 3) : (x &&& 0b110) ||| 0b110 = 0b110 := by
  revert x
  decide

/-- Both formulas replace bits 9:7 and keep the other two fields. -/
theorem mixCounter_eq_append (h : BitVec 16) (c : BitVec 3) (legacy : BitVec 1) :
    mixCounter h c legacy = h.extractLsb' 10 6 ++ mixedCounter c legacy ++ h.extractLsb' 0 7 := by
  unfold mixCounter mixedCounter
  split_ifs
  · exact (mask_or_counterBits h 0b110 0b110).trans (by rw [legacyMarker_eq])
  · rw [shiftLeft_counter_eq_append]
    exact (mask_or_counterBits h 0 c).trans (by simp)

/-- Settles O20. -/
theorem mixCounterReplacesBits9To7 : Obligations.MixCounterReplacesBits9To7 :=
  fun h c => ⟨rfl, mixCounter_eq_append h c 0, rfl, mixCounter_eq_append h c 1⟩

section MixedFields

variable (h : BitVec 16) (c : BitVec 3) (legacy : BitVec 1)

theorem mixCounter_high : (mixCounter h c legacy).extractLsb' 10 6 = h.extractLsb' 10 6 := by
  rw [mixCounter_eq_append, extractLsb'_hash_high]

theorem mixCounter_counter : (mixCounter h c legacy).extractLsb' 7 3 = mixedCounter c legacy := by
  rw [mixCounter_eq_append, extractLsb'_hash_counter]

theorem mixCounter_low : (mixCounter h c legacy).extractLsb' 0 7 = h.extractLsb' 0 7 := by
  rw [mixCounter_eq_append, extractLsb'_hash_low]

/-- Mixing reads of the hash only the fields that it keeps. -/
theorem mixCounter_idempotent : mixCounter (mixCounter h c legacy) c legacy = mixCounter h c legacy := by
  rw [mixCounter_eq_append (mixCounter h c legacy), mixCounter_high, mixCounter_low, ← mixCounter_eq_append]

theorem mixCounter_legacy_eq_six : mixCounter h c 1 = mixCounter h 6 0 := by
  rw [mixCounter_eq_append, mixCounter_eq_append, mixedCounter_legacy, mixedCounter_counterMode]

end MixedFields

/-- In counter mode the counter can be read back from the hash. -/
theorem mixCounter_counter_injective (h : BitVec 16) : Function.Injective (mixCounter h · 0) := fun c d hcd => by
  have hfield := congrArg (BitVec.extractLsb' 7 3) hcd
  simpa only [mixCounter_counter, mixedCounter_counterMode] using hfield

/-! ### deriveHash (R170) -/

theorem deriveHash_append (a b : BitVec 16) : deriveHash (a ++ b) = a ^^^ b :=
  congrArg₂ (· ^^^ ·) BitVec.extractLsb'_append_eq_left BitVec.extractLsb'_append_eq_right

/-- Settles O19. -/
theorem deriveHashXorsTheHalves : Obligations.DeriveHashXorsTheHalves := by
  refine ⟨fun x k hk => ?_, deriveHash_append 0x4711 0xEEF0⟩
  rw [deriveHash, BitVec.getLsbD_xor, BitVec.getLsbD_extractLsb', BitVec.getLsbD_extractLsb']
  simp [hk]

/-- Settles O21: the laws of `mixCounter` say what its three fields are, and that of `deriveHash` is commutativity. -/
theorem hashLaws : Obligations.HashLaws := by
  refine ⟨fun h c m => ⟨mixCounter_high h c m, mixCounter_low h c m⟩, fun h c => mixCounter_counter h c 0,
    fun h c => mixCounter_counter h c 1, mixCounter_legacy_eq_six, mixCounter_idempotent, fun a b => ?_,
    fun x c d hcd => (mixCounter_counter_injective (deriveHash x)).ne hcd⟩
  rw [deriveHash_append, deriveHash_append, BitVec.xor_comm]

/-! ### The node hash (R173) -/

section NodeHash

variable {s : State} {id : BitVec 32}

theorem nodeHash_of_legacy (hid : s.nodeId = .holds id) (hlegacy : s.legacy = .holds 1) :
    nodeHash s = .ok (mixCounter (deriveHash id) 0 1) := by
  simp [nodeHash, hid, hlegacy]

theorem nodeHash_of_counterMode {c : BitVec 3} (hid : s.nodeId = .holds id) (hlegacy : s.legacy = .holds 0)
    (hctr : s.ctr = .holds c) : nodeHash s = .ok (mixCounter (deriveHash id) c 0) := by
  simp [nodeHash, hid, hlegacy, hctr]

end NodeHash

/-- Settles O22. -/
theorem nodeHashOfTheConfiguration : Obligations.NodeHashOfTheConfiguration := fun _ =>
  ⟨fun _ => nodeHash_of_legacy, fun _ _ => nodeHash_of_counterMode, configured_iff_nodeHash.1,
    nodeHash_of_not_configured⟩

/-! ### The operations (R174 to R176) -/

/-- Settles O23. -/
theorem hashDeriveWritesTheHash : Obligations.HashDeriveWritesTheHash :=
  ⟨rfl, wordsAre_withoutFields fun _ _ => rfl, exec_hashDerive⟩

/-- Words are combined field by field. -/
theorem packWord_or (lg lg' : BitVec 1) (arg arg' : BitVec 3) (opc opc' : Byte) :
    packWord lg arg opc ||| packWord lg' arg' opc' = packWord (lg ||| lg') (arg ||| arg') (opc ||| opc') :=
  BitVec.or_append.trans (by simp only [BitVec.or_append, BitVec.or_zero, packWord])

/-- The operation word is OPC with ARG shifted to bits 10:8 and LG to bit 11. -/
theorem packWord_eq_or (lg : BitVec 1) (arg : BitVec 3) (opc : Byte) :
    packWord lg arg opc = opc.setWidth 16 ||| (arg.setWidth 16 <<< 8) ||| (lg.setWidth 16 <<< 11) := by
  have hlg : lg.setWidth 16 <<< 11 = packWord lg 0 0 := by
    revert lg
    decide
  rw [← packWord_zero_eq_or, hlg, packWord_or]
  simp

theorem wordsAre_withBothFields {opc : Byte} {op : BitVec 3 → BitVec 1 → Instr}
    (h : ∀ arg lg, decodeOpc opc arg lg = .op (op arg lg)) : WordsAre opc true true op :=
  wordsAre_of_decodeOpc_iff fun arg lg i => by simp [h]

/-- Settles O24: the decoder takes both fields as they are. -/
theorem hashMixWritesTheMixedHash : Obligations.HashMixWritesTheMixedHash :=
  ⟨fun c lg => decode_eq_op_iff_encode.2 ⟨rfl, packWord_eq_or lg c 0x11⟩,
    wordsAre_withBothFields fun _ _ => rfl, fun s c lg => exec_hashMix c lg s⟩

/-- Settles O25: NODE_HASH ends with the node hash of the state, or with its error. -/
theorem nodeHashWritesTheNodeHash : Obligations.NodeHashWritesTheNodeHash := by
  refine ⟨rfl, wordsAre_withoutFields fun _ _ => rfl, fun s => ⟨fun hs => ?_, fun hs => ?_⟩⟩
  · obtain ⟨a, ha⟩ := configured_iff_nodeHash.1 hs
    refine ⟨a, ha, ?_⟩
    rw [CompletesWith, exec_nodeHash, ha]
    rfl
  · rw [EndsWithError, exec_nodeHash, nodeHash_of_not_configured hs]
    rfl

end Sys2Proof.Machine

/-! The control operations (43_control.md): the statements O12 to O17. First what CTR_ADVANCE does, as an operation, a
step and a run, and what an operation's effect keeps of the configuration and of the outputs; then the statements. -/

namespace Sys2Proof.Machine

/-! ### The words of CFG_MODE (R192) -/

theorem wordsAre_withLgOnly {opc : Byte} {op : BitVec 1 → Instr}
    (h : ∀ arg lg, decodeOpc opc arg lg = withLgOnly arg (op lg)) : WordsAre opc false true (fun _ lg => op lg) :=
  wordsAre_of_decodeOpc_iff fun arg lg i => by simp [h, withLgOnly_eq_op]

/-! ### CTR_ADVANCE (R194) -/

theorem ofNat_toNat_add_eq (c : BitVec 3) (n : Nat) : BitVec.ofNat 3 (c.toNat + n) = c + BitVec.ofNat 3 n := by
  rw [BitVec.ofNat_add, BitVec.ofNat_toNat, BitVec.setWidth_eq]

section CtrAdvance

variable {s : State}

theorem exec_ctrAdvance_of_holds {c : BitVec 3} (hc : s.ctr = .holds c) :
    exec .ctrAdvance s = .next { s with ctr := .holds (c + 1), status := statusOk } := by
  rw [exec_ctrAdvance, hc]
  rfl

theorem exec_ctrAdvance_of_unwritten (hc : s.ctr = .unwritten) :
    exec .ctrAdvance s = .next (raiseError .unconfigured s) := by
  rw [exec_ctrAdvance, hc]
  rfl

theorem decode_ctrAdvance : decode 0x0004 = .op .ctrAdvance := rfl

theorem step_ctrAdvance {c : BitVec 3} {b : Buses} {rest : List HostEvent} (hc : s.ctr = .holds c)
    (hissues : s.issues = .operation 0x0004 b :: rest) :
    step s = .next { s with ctr := .holds (c + 1), status := 0, issues := rest } := by
  obtain ⟨-, -, t, ht, hstep⟩ := stepRunsTheDecodedOperation s _ b rest _ hissues decode_ctrAdvance
  cases (exec_ctrAdvance_of_holds hc).symm.trans ht
  exact hstep

/-- A run of n + 1 advances adds n + 1 to the counter, in its 3 bits. -/
theorem runSteps_ctrAdvance {b : Buses} {rest : List HostEvent} (n : Nat) {c : BitVec 3} (hc : s.ctr = .holds c)
    (hissues : s.issues = List.replicate (n + 1) (.operation 0x0004 b) ++ rest) :
    runSteps (n + 1) s =
      .next { s with ctr := .holds (c + BitVec.ofNat 3 (n + 1)), status := 0, issues := rest } := by
  induction n generalizing s c with
  | zero => exact runSteps_succ 0 (step_ctrAdvance hc hissues)
  | succ n ih =>
    have hsum : c + 1 + BitVec.ofNat 3 (n + 1) = c + BitVec.ofNat 3 (n + 1 + 1) := by
      rw [BitVec.add_assoc, Nat.add_comm (n + 1) 1, BitVec.ofNat_add 1 (n + 1)]
      rfl
    rw [runSteps_succ (n + 1) (step_ctrAdvance hc hissues), ih rfl rfl, hsum]

end CtrAdvance

/-! ### The configuration and the outputs in an operation's effect (R190) -/

/-- A control operation is no writer of an output register. -/
theorem writers_of_isControl {i : Instr} (hi : isControl i = true) :
    writesRes i = false ∧ builtKind? Config.prio i = none ∧ i ≠ .parse ∧ i ≠ .extractDevice := by
  cases i with
  | cfgNodeId | cfgMode _ | ctrWrite _ | ctrAdvance => exact ⟨rfl, rfl, nofun, nofun⟩
  | _ => exact nomatch hi

section Configuration

variable {i : Instr} {s t : State}

theorem Effect.configuration_kept (h : Effect i s t) (hi : isControl i = false) :
    t.nodeId = s.nodeId ∧ t.legacy = s.legacy ∧ t.ctr = s.ctr := by
  refine ⟨h.nodeId_kept.resolve_right ?_, h.legacy_kept.resolve_right ?_, h.ctr_kept.resolve_right ?_⟩
  · rintro rfl
    exact nomatch hi
  · rintro ⟨_, rfl⟩
    exact nomatch hi
  · rintro (rfl | ⟨_, rfl⟩) <;> exact nomatch hi

theorem Effect.control_writes_configuration_only (h : Effect i s t) (hi : isControl i = true) :
    t = { s with nodeId := t.nodeId, legacy := t.legacy, ctr := t.ctr, status := t.status } := by
  obtain ⟨hres, hkind, hparse, hextract⟩ := writers_of_isControl hi
  cases h with
  | failed _ | nodeId _ | legacy _ _ | ctr _ _ => rfl
  | result _ hwrites => simp [hres] at hwrites
  | header hi' => exact absurd hi' hparse
  | device hi' | noDevice hi' => exact absurd hi' hextract
  | frame _ _ _ _ _ hbuilt => simp [hkind] at hbuilt

end Configuration

/-! ### The statements -/

/-- Settles O16, by induction on the number of advances; eight add 0 in 3 bits. -/
theorem advancesAddUpModulo8 : Obligations.AdvancesAddUpModulo8 := by
  refine ⟨fun n s c b rest hc hissues => ?_, fun s c b rest hc hissues => ?_⟩
  · rw [ofNat_toNat_add_eq, runSteps_ctrAdvance n hc hissues]
  · have hwrap : c + BitVec.ofNat 3 (7 + 1) = c := BitVec.add_zero c
    rw [runSteps_ctrAdvance 7 hc hissues, hwrap, ← hc]

/-- Settles O17: the four operations keep the registers behind the ports, so they keep the ports. -/
theorem onlyControlOperationsWriteConfiguration : Obligations.OnlyControlOperationsWriteConfiguration := by
  intro i s t h
  have heff := exec_effect h
  refine ⟨heff.configuration_kept, fun hi => ?_⟩
  have ht := heff.control_writes_configuration_only hi
  exact ⟨ht, congrArg State.outputs ht⟩

/-- Settles O12: CFG_NODE_ID takes whatever opa carries. -/
theorem cfgNodeIdWritesTheNodeIdentity : Obligations.CfgNodeIdWritesTheNodeIdentity :=
  ⟨rfl, wordsAre_withoutFields fun _ _ => rfl, exec_cfgNodeId⟩

/-- Settles O13: the decoder takes LG as it is. -/
theorem cfgModeSelectsTheMixing : Obligations.CfgModeSelectsTheMixing :=
  ⟨rfl, rfl, wordsAre_withLgOnly fun _ _ => rfl, fun s lg => exec_cfgMode lg s⟩

/-- Settles O14: the decoder takes ARG as it is. -/
theorem ctrWriteSetsTheCounter : Obligations.CtrWriteSetsTheCounter :=
  ⟨fun c => decode_eq_op_iff_encode.2 ⟨rfl, packWord_zero_eq_or c 0x03⟩, wordsAre_withArgOnly fun _ _ => rfl,
    fun s c => exec_ctrWrite c s⟩

/-- Settles O15: whether there is a next counter value is whether CTR holds one. -/
theorem ctrAdvanceAddsOneModulo8 : Obligations.CtrAdvanceAddsOneModulo8 := by
  refine ⟨decode_ctrAdvance, wordsAre_withoutFields fun _ _ => rfl, fun s => ⟨fun c hc => ?_, fun hv => ?_⟩⟩
  · have hmod : BitVec.ofNat 3 ((c.toNat + 1) % 8) = c + 1 := BitVec.eq_of_toNat_eq (by simp)
    rw [CompletesWith, hmod]
    exact exec_ctrAdvance_of_holds hc
  · exact exec_ctrAdvance_of_unwritten ((Reg.valid_eq_zero s.ctr).1 hv)

end Sys2Proof.Machine

/-! The errors (60_exceptions.md): the statements O6 and O42 to O44. First the illegal words, by the fields that an
operation code leaves open, and what a step does with one; then what an operation that fails leaves behind, and that
every step has a next state; last the causes of each error, each with the STATUS that it leads to. -/

namespace Sys2Proof.Machine

/-! ### Illegal words (R214; 30_encoding.md R77, R79) -/

section OperationMap

variable {opc : Byte}

/-- An operation code that uses neither field stands for one operation, whose fields must be 0. -/
theorem decodeOpc_of_mem_opcsWithoutFields (h : opc ∈ opcsWithoutFields) :
    ∃ i, ∀ arg lg, decodeOpc opc arg lg = withoutFields arg lg i := by
  fin_cases h <;> exact ⟨_, fun _ _ => rfl⟩

/-- An operation code that uses ARG stands for an operation for each ARG, whose LG must be 0. -/
theorem decodeOpc_of_mem_opcsWithArg (h : opc ∈ opcsWithArg) :
    ∃ op : BitVec 3 → Instr, ∀ arg lg, decodeOpc opc arg lg = withArgOnly lg (op arg) := by
  fin_cases h <;> exact ⟨_, fun _ _ => rfl⟩

/-- CFG_MODE stands for an operation for each LG, whose ARG must be 0. -/
theorem decodeOpc_of_mem_opcsWithLg (h : opc ∈ opcsWithLg) (arg : BitVec 3) (lg : BitVec 1) :
    decodeOpc opc arg lg = withLgOnly arg (.cfgMode lg) := by
  obtain rfl := List.mem_singleton.1 h
  rfl

/-- HASH_MIX takes every value of both fields. -/
theorem decodeOpc_of_mem_opcsWithBoth (h : opc ∈ opcsWithBoth) (arg : BitVec 3) (lg : BitVec 1) :
    decodeOpc opc arg lg = .op (.hashMix arg lg) := by
  obtain rfl := List.mem_singleton.1 h
  rfl

/-- The operation codes of the map are those of its operations. -/
theorem opcOf_mem_of_wellFormed {i : Instr} (h : wellFormed i = true) :
    opcOf i ∈ opcsWithoutFields ++ opcsWithArg ++ opcsWithLg ++ opcsWithBoth := by
  cases i with
  | reservedBuild opc => obtain rfl | rfl | rfl | rfl := isReservedBuildOpc_iff.1 h <;> decide
  | _ => simp [opcOf, opcsWithoutFields, opcsWithArg, opcsWithLg, opcsWithBoth]

/-- An operation code outside the map decodes to no operation, whatever the fields. -/
theorem decodeOpc_ne_op_of_not_mem
    (h : opc ∉ opcsWithoutFields ++ opcsWithArg ++ opcsWithLg ++ opcsWithBoth) (arg : BitVec 3) (lg : BitVec 1)
    (i : Instr) : decodeOpc opc arg lg ≠ .op i := by
  intro hi
  obtain ⟨rfl, -⟩ := fields_of_decodeOpc hi
  exact h (opcOf_mem_of_wellFormed (wellFormed_of_decodeOpc hi))

/-- A code that uses ARG is in neither list of codes whose ARG must be 0. -/
theorem not_mem_of_mem_opcsWithArg : ∀ opc ∈ opcsWithArg, opc ∉ opcsWithoutFields ++ opcsWithLg := by decide

theorem not_mem_of_mem_opcsWithLg : ∀ opc ∈ opcsWithLg, opc ∉ opcsWithoutFields ++ opcsWithArg := by decide

theorem not_mem_of_mem_opcsWithBoth :
    ∀ opc ∈ opcsWithBoth, opc ∉ opcsWithoutFields ++ opcsWithArg ∧ opc ∉ opcsWithoutFields ++ opcsWithLg := by
  decide

/-- With RSV = 0, the decoder answers no operation where the code is not in the map, or where a field is set that the
code's operation does not use. -/
theorem decodeOpc_ne_op_iff {arg : BitVec 3} {lg : BitVec 1} :
    (∀ i, decodeOpc opc arg lg ≠ .op i) ↔
      opc ∉ opcsWithoutFields ++ opcsWithArg ++ opcsWithLg ++ opcsWithBoth ∨
      (arg ≠ 0 ∧ opc ∈ opcsWithoutFields ++ opcsWithLg) ∨ (lg ≠ 0 ∧ opc ∈ opcsWithoutFields ++ opcsWithArg) := by
  by_cases hmap : opc ∈ opcsWithoutFields ++ opcsWithArg ++ opcsWithLg ++ opcsWithBoth
  · simp only [hmap, not_true_eq_false, false_or]
    obtain ((hopc | hopc) | hopc) | hopc : ((opc ∈ opcsWithoutFields ∨ opc ∈ opcsWithArg) ∨ opc ∈ opcsWithLg) ∨
        opc ∈ opcsWithBoth := by simpa only [List.mem_append] using hmap
    · obtain ⟨i, hi⟩ := decodeOpc_of_mem_opcsWithoutFields hopc
      simp [hi, withoutFields_eq_op, hopc, ← imp_iff_not_or]
    · obtain ⟨op, hop⟩ := decodeOpc_of_mem_opcsWithArg hopc
      simp [hop, withArgOnly_eq_op, not_mem_of_mem_opcsWithArg opc hopc, List.mem_append_right _ hopc]
    · simp [decodeOpc_of_mem_opcsWithLg hopc, withLgOnly_eq_op, not_mem_of_mem_opcsWithLg opc hopc,
        List.mem_append_right _ hopc]
    · obtain ⟨harg, hlg⟩ := not_mem_of_mem_opcsWithBoth opc hopc
      simp [decodeOpc_of_mem_opcsWithBoth hopc, harg, hlg]
  · exact ⟨fun _ => .inl hmap, fun _ => decodeOpc_ne_op_of_not_mem hmap arg lg⟩

end OperationMap

section IllegalWord

variable {w : OpWord}

theorem exists_cause_of_isIllegalWord (h : isIllegalWord w = true) : ∃ c, decode w = .illegalOp c := by
  cases hw : decode w with
  | op i => simp [isIllegalWord, hw] at h
  | illegalOp c => exact ⟨c, rfl⟩

theorem isIllegalWord_iff_forall_ne : isIllegalWord w = true ↔ ∀ i, decode w ≠ .op i := by
  refine ⟨fun h i hi => ?_, isIllegalWord_of_forall_ne⟩
  obtain ⟨c, hc⟩ := exists_cause_of_isIllegalWord h
  exact nomatch hi.symm.trans hc

/-- A word is illegal where RSV is set or no operation is left by the decoder. -/
theorem isIllegalWord_iff_fields :
    isIllegalWord w = true ↔ wordRsv w ≠ 0 ∨ ∀ i, decodeOpc (wordOpc w) (wordArg w) (wordLg w) ≠ .op i := by
  rw [isIllegalWord_iff_forall_ne]
  simp only [ne_eq, decode_eq_op, not_and, ← imp_iff_not_or]
  exact forall_comm

/-- An illegal word is taken off the port with STATUS = 2 and nothing else written. -/
theorem step_of_isIllegalWord {s : State} {b : Buses} {rest : List HostEvent} (hs : s.issues = .operation w b :: rest)
    (h : isIllegalWord w = true) : step s = .next { s with status := 2, issues := rest } := by
  obtain ⟨c, hc⟩ := exists_cause_of_isIllegalWord h
  simp [step, takeFromPort, hs, serve, runWord_illegal hc, raiseError, State.advancePort, Err.code]

end IllegalWord

/-- Settles O6: the four causes are RSV, and what the decoder tells apart once RSV is 0. -/
theorem illegalWordsRaiseIllegalOp : Obligations.IllegalWordsRaiseIllegalOp :=
  ⟨fun _ => isIllegalWord_iff_fields.trans (or_congr_right decodeOpc_ne_op_iff),
    fun _ _ _ _ => step_of_isIllegalWord⟩

/-! ### What a failed operation leaves behind (R212) -/

/-- Only an error ends an operation with a STATUS other than OK, and raising it writes nothing else. -/
theorem Effect.status_only_of_ne_ok {i : Instr} {s t : State} (h : Effect i s t) (hst : t.status ≠ statusOk) :
    t = { s with status := t.status } := by
  cases h with
  | failed _ => rfl
  | _ => exact absurd rfl hst

/-- Settles O42. -/
theorem failedOperationsWriteOnlyStatus : Obligations.FailedOperationsWriteOnlyStatus :=
  fun _ _ _ h => (exec_effect h).status_only_of_ne_ok

/-! ### Nothing stops the block (R220) -/

theorem runWord_exists_next (w : OpWord) (s : State) : ∃ t, runWord w s = .next t := by
  cases hw : decode w with
  | op i => exact (runWord_op hw s).symm ▸ exec_exists_next i s
  | illegalOp c => exact ⟨_, runWord_illegal hw s⟩

/-- Every step has a next state, whatever the host presents. -/
theorem step_exists_next (s : State) : ∃ t, step s = .next t := by
  unfold step takeFromPort
  split
  · exact ⟨_, rfl⟩
  · next e _ _ =>
    cases e with
    | reset => exact ⟨_, rfl⟩
    | operation w b =>
      obtain ⟨t, ht⟩ := runWord_exists_next w s
      exact ⟨t.advancePort, by rw [serve, ht, thenAdvance_next]⟩

/-- Every run has a next state, however long it is. -/
theorem runSteps_exists_next (n : Nat) (s : State) : ∃ t, runSteps n s = .next t := by
  induction n generalizing s with
  | zero => exact ⟨s, rfl⟩
  | succ n ih =>
    obtain ⟨t, ht⟩ := step_exists_next s
    exact runSteps_succ n ht ▸ ih t

/-- A step that ends with STATUS = 7 serves a reset or has nothing to serve. -/
theorem reset_or_idle_of_status_reset {s t : State} (h : step s = .next t) (hst : t.status = statusReset) :
    (∃ rest, s.issues = .reset :: rest) ∨ (s.issues = [] ∧ s.status = statusReset) := by
  obtain ⟨hidle, rfl⟩ | ⟨rest, hreset, -⟩ | ⟨w, _, _, u, -, hu, rfl⟩ := step_cases h
  · exact .inr ⟨hidle, hst⟩
  · exact .inl ⟨rest, hreset⟩
  · obtain ⟨i, heff⟩ := runWord_effect hu
    obtain ⟨-, -, hne⟩ := heff.status_ne
    exact absurd hst hne

/-- Settles O44. -/
theorem nothingStopsTheBlock : Obligations.NothingStopsTheBlock :=
  ⟨runSteps_exists_next, fun _ _ => reset_or_idle_of_status_reset⟩

/-! ### The causes of each error (R215 to R218) -/

/-- The operation names a command that has no template (R215). -/
def CausesUnknownCommand (i : Instr) : Prop := i = .buildMfxVerify ∨ ∃ opc, i = .reservedBuild opc

/-- The operation's length would leave 0 to 8 (R216). -/
def CausesBadLength (i : Instr) (s : State) : Prop :=
  4 < (locoN i).toNat ∨ ((i = .classify ∨ i = .extractDevice) ∧ 8 < s.buses.opl.toNat)

/-- The operation is NODE_HASH or builds a frame: it needs a node hash (R217), once its length is checked (R218). -/
def NeedsNodeHash (i : Instr) : Prop :=
  ((builtKind? Config.prio i).isSome = true ∧ (locoN i).toNat ≤ 4) ∨ i = .nodeHash

/-- The operation needs a register that is unwritten (R217). -/
def CausesUnconfigured (i : Instr) (s : State) : Prop :=
  NeedsNodeHash i ∧ ¬ Configured s ∨ i = .ctrAdvance ∧ s.ctrV = 0

section Causes

variable {i : Instr} {s : State}

/-- A frame-building operation whose length is legal ends as `buildFrame` does. -/
theorem exec_eq_buildFrame (hi : (builtKind? Config.prio i).isSome = true) (hn : (locoN i).toNat ≤ 4) :
    ∃ code prio len ws bc, exec i s = complete s (buildFrame code prio len ws bc s) := by
  cases i with
  | buildLocoSpeed n => exact ⟨_, _, _, _, _, exec_locoBuild_of_le hn (exec_buildLocoSpeed n s) rfl⟩
  | buildLocoDir n => exact ⟨_, _, _, _, _, exec_locoBuild_of_le hn (exec_buildLocoDir n s) rfl⟩
  | buildLocoFunc n => exact ⟨_, _, _, _, _, exec_locoBuild_of_le hn (exec_buildLocoFunc n s) rfl⟩
  | buildBootloaderStart | buildPing | buildSystemGo | buildSystemHold | buildSystemStop | buildMfxDiscovery
  | buildMfxBind | buildBind => exact ⟨_, _, _, _, _, rfl⟩
  | _ => exact nomatch hi

theorem endsUnknownCommand_of_cause (h : CausesUnknownCommand i) : EndsWithError i s 1 := by
  obtain rfl | ⟨opc, rfl⟩ := h
  · exact exec_buildMfxVerify s
  · exact exec_reservedBuild opc s

theorem endsBadLength_of_cause (h : CausesBadLength i s) : EndsWithError i s 3 := by
  obtain hn | ⟨rfl | rfl, hlen⟩ := h
  · cases i with
    | buildLocoSpeed n => exact endsBadLength_of_locoBuild hn (exec_buildLocoSpeed n s) rfl
    | buildLocoDir n => exact endsBadLength_of_locoBuild hn (exec_buildLocoDir n s) rfl
    | buildLocoFunc n => exact endsBadLength_of_locoBuild hn (exec_buildLocoFunc n s) rfl
    | _ => exact absurd (show 4 < 0 from hn) (by decide)
  · exact endsBadLength_of_length_gt hlen (exec_classify s)
  · exact endsBadLength_of_length_gt hlen (exec_extractDevice s)

theorem endsUnconfigured_of_cause (h : CausesUnconfigured i s) : EndsWithError i s 4 := by
  obtain ⟨⟨hi, hn⟩ | rfl, hs⟩ | ⟨rfl, hv⟩ := h
  · obtain ⟨_, _, _, _, _, hexec⟩ := exec_eq_buildFrame hi hn
    exact endsUnconfigured_of_not_configured hs hexec
  · obtain ⟨-, -, hnode⟩ := nodeHashWritesTheNodeHash
    exact (hnode s).2 hs
  · exact exec_ctrAdvance_of_unwritten ((Reg.valid_eq_zero s.ctr).1 hv)

/-- The operation ends with STATUS = OK. -/
def EndsOk (i : Instr) (s : State) : Prop := ∃ t, exec i s = .next t ∧ t.status = statusOk

theorem endsOk_of_complete_ok {u : State} (h : exec i s = complete s (.ok u)) : EndsOk i s := ⟨_, h, rfl⟩

/-- In a configured state, what needs a node hash has one. -/
theorem endsOk_of_configured (hi : NeedsNodeHash i) (hs : Configured s) : EndsOk i s := by
  obtain ⟨a, ha⟩ := configured_iff_nodeHash.1 hs
  obtain ⟨hkind, hn⟩ | rfl := hi
  · obtain ⟨_, _, _, _, _, hexec⟩ := exec_eq_buildFrame hkind hn
    exact endsOk_of_complete_ok (by rw [hexec, buildFrame_of_nodeHash ha])
  · exact endsOk_of_complete_ok (by rw [exec_nodeHash, ha]; rfl)

/-- An operation without a cause of an error ends with OK (R213). -/
theorem endsOk_of_no_cause (hunknown : ¬ CausesUnknownCommand i) (hlength : ¬ CausesBadLength i s)
    (hconf : ¬ CausesUnconfigured i s) : EndsOk i s := by
  obtain ⟨hn, hopl⟩ := not_or.1 hlength
  obtain ⟨hhash, hctr⟩ := not_or.1 hconf
  have hneeds : NeedsNodeHash i → EndsOk i s := fun hi => endsOk_of_configured hi (by_contra fun hs => hhash ⟨hi, hs⟩)
  cases i with
  | cfgNodeId | cfgMode _ | ctrWrite _ | hashDerive | hashMix _ _ | parse => exact endsOk_of_complete_ok rfl
  | ctrAdvance =>
    cases hc : s.ctr with
    | unwritten => exact absurd ⟨rfl, (Reg.valid_eq_zero s.ctr).2 hc⟩ hctr
    | holds c => exact ⟨_, exec_ctrAdvance_of_holds hc, rfl⟩
  | classify => exact ⟨_, exec_of_length_le (by simpa using hopl) (exec_classify s), rfl⟩
  | extractDevice =>
    have hexec := exec_of_length_le (by simpa using hopl) (exec_extractDevice s)
    split_ifs at hexec <;> exact endsOk_of_complete_ok hexec
  | buildMfxVerify => exact absurd (.inl rfl) hunknown
  | reservedBuild opc => exact absurd (.inr ⟨opc, rfl⟩) hunknown
  | nodeHash => exact hneeds (.inr rfl)
  | _ => exact hneeds (.inl ⟨rfl, Nat.not_lt.1 hn⟩)

end Causes

theorem status_of_endsWithError {i : Instr} {s t : State} {code : BitVec 3} (h : exec i s = .next t)
    (he : EndsWithError i s code) : t.status = code := by
  cases h.symm.trans he
  rfl

/-- Settles O43: each cause leads to its STATUS, no two causes meet because an operation has one outcome, and without a
cause the operation ends with OK. -/
theorem eachErrorHasExactlyItsCauses : Obligations.EachErrorHasExactlyItsCauses := by
  intro i s
  obtain ⟨t, ht⟩ := exec_exists_next i s
  have h1 : CausesUnknownCommand i → t.status = 1 := fun h => status_of_endsWithError ht (endsUnknownCommand_of_cause h)
  have h3 : CausesBadLength i s → t.status = 3 := fun h => status_of_endsWithError ht (endsBadLength_of_cause h)
  have h4 : CausesUnconfigured i s → t.status = 4 := fun h => status_of_endsWithError ht (endsUnconfigured_of_cause h)
  have h0 : ¬ CausesUnknownCommand i → ¬ CausesBadLength i s → ¬ CausesUnconfigured i s → t.status = 0 := by
    intro hu hb hc
    obtain ⟨u, hexec, hst⟩ := endsOk_of_no_cause hu hb hc
    cases ht.symm.trans hexec
    exact hst
  change ∃ t, exec i s = .next t ∧ (t.status = 1 ↔ CausesUnknownCommand i) ∧ (t.status = 3 ↔ CausesBadLength i s) ∧
    (t.status = 4 ↔ CausesUnconfigured i s) ∧ (t.status = 0 ∨ t.status = 1 ∨ t.status = 3 ∨ t.status = 4)
  refine ⟨t, ht, ?_⟩
  -- Each cause fixes STATUS, which rules the other two causes out.
  by_cases hu : CausesUnknownCommand i
  · simp_all
  by_cases hb : CausesBadLength i s
  · simp_all
  by_cases hc : CausesUnconfigured i s
  · simp_all
  · simp_all

end Sys2Proof.Machine

/-! Reset and the boot sequence (70_reset_and_hazards.md): the statements O2, O3 and O18. First what a reset at the port
does and which flags an operation's effect keeps; then the operations in a state that reset left; last the run of
operations whose results do not depend on their order. -/

namespace Sys2Proof.Machine

/-! ### Reset and the valid flags (R240) -/

theorem step_reset {s : State} {rest : List HostEvent} (hs : s.issues = .reset :: rest) :
    step s = .next { State.reset with issues := rest } := by
  simp [step, takeFromPort, serve, resetRegisters, State.advancePort, hs]

section ValidFlags

variable {i : Instr} {s t : State}

theorem Effect.ctrV_mono (h : Effect i s t) (hs : s.ctrV = 1) : t.ctrV = 1 := by
  cases h with
  | ctr _ _ => rfl
  | _ => exact hs

theorem Effect.txV_mono (h : Effect i s t) (hs : s.txV = 1) : t.txV = 1 := by
  cases h with
  | frame _ _ _ _ _ _ _ _ _ _ => rfl
  | _ => exact hs

theorem Effect.hdrV_mono (h : Effect i s t) (hs : s.hdrV = 1) : t.hdrV = 1 := by
  cases h with
  | header _ => rfl
  | _ => exact hs

theorem Effect.resV_mono (h : Effect i s t) (hs : s.resV = 1) : t.resV = 1 := by
  cases h with
  | result _ _ => rfl
  | _ => exact hs

/-- Of all words, illegal ones included, only that of EXTRACT_DEVICE changes DEV_V (R147). -/
theorem runWord_devV_kept {w : OpWord} (h : runWord w s = .next t) :
    t.devV = s.devV ∨ decode w = .op .extractDevice := by
  cases hw : decode w with
  | op i =>
    obtain ⟨-, hdevV⟩ | rfl := (exec_effect ((runWord_op hw s).symm.trans h)).dev_kept
    · exact .inl hdevV
    · exact .inr rfl
  | illegalOp c =>
    cases (runWord_illegal hw s).symm.trans h
    exact .inl rfl

end ValidFlags

/-- Settles O2: a step that serves no reset is idle or runs a word, whose effect sets flags and clears none but
DEV_V. -/
theorem onlyResetClearsValidFlags : Obligations.OnlyResetClearsValidFlags := by
  refine ⟨fun s rest hs => ⟨_, step_reset hs, rfl, rfl, rfl, rfl, rfl, rfl, rfl, rfl, rfl⟩, fun s t hno h => ?_⟩
  obtain ⟨-, rfl⟩ | ⟨rest, hreset, -⟩ | ⟨w, b, rest, u, hissues, hu, rfl⟩ := step_cases h
  · exact ⟨id, id, id, id, id, id, fun hv hne => absurd hv hne⟩
  · exact absurd hreset (hno rest)
  · obtain ⟨i, heff⟩ := runWord_effect hu
    refine ⟨heff.nodeIdV_mono, heff.legacyV_mono, heff.ctrV_mono, heff.txV_mono, heff.hdrV_mono, heff.resV_mono,
      fun hv hne => ⟨w, b, rest, hissues, ?_⟩⟩
    exact (runWord_devV_kept hu).resolve_left fun hkept => hne (hkept.trans hv)

/-! ### The operations right after reset (R241) -/

theorem not_configured_of_nodeId_unwritten {s : State} (h : s.nodeId = .unwritten) : ¬ Configured s := by
  rintro ⟨hv, -, -⟩
  simp [State.nodeIdV, (Reg.valid_eq_zero s.nodeId).2 h] at hv

/-- The decoder operations that check the received length need nothing else (R145, R147). -/
theorem endsOk_of_length_le {i : Instr} {s : State} (hi : i = .classify ∨ i = .extractDevice)
    (hlen : s.buses.opl.toNat ≤ 8) : EndsOk i s := by
  have hlength : ¬ 8 < s.buses.opl.toNat := Nat.not_lt.2 hlen
  obtain rfl | rfl := hi <;>
    exact endsOk_of_no_cause (by simp [CausesUnknownCommand]) (by simp [CausesBadLength, locoN, hlength])
      (by simp [CausesUnconfigured, NeedsNodeHash, builtKind?])

/-- Settles O3: the first group needs no register, and reset leaves NODE_ID and CTR unwritten, which the second group
needs. -/
theorem operationsRightAfterReset : Obligations.OperationsRightAfterReset := by
  intro s hs
  have hnode : s.nodeId = .unwritten := congrArg State.nodeId hs
  have hctr : s.ctrV = 0 := congrArg State.ctrV hs
  have hconf := not_configured_of_nodeId_unwritten hnode
  constructor
  · rintro i (rfl | rfl | rfl | ⟨c, l, rfl⟩ | ⟨l, rfl⟩ | ⟨c, rfl⟩ | ⟨hi, hlen⟩)
    iterate 6
      · exact endsOk_of_complete_ok rfl
    · exact endsOk_of_length_le hi hlen
  · rintro i (rfl | rfl | hbuild) <;> apply endsUnconfigured_of_cause
    · exact .inl ⟨.inr rfl, hconf⟩
    · exact .inr ⟨rfl, hctr⟩
    · exact .inl ⟨.inl hbuild, hconf⟩

/-! ### The boot sequence (R242) -/

/-- `s` with `events` at the port, in issue order. -/
def State.presenting (s : State) (events : List HostEvent) : State := { s with issues := events }

theorem State.presenting_eq_self {s : State} {events : List HostEvent} (h : s.issues = events) :
    s.presenting events = s := by
  subst h
  rfl

/-- Serving `e` changes the registers as `f` does, whatever they hold and whatever the host presents next. -/
def Serves (e : HostEvent) (f : State → State) : Prop :=
  ∀ (s : State) (rest : List HostEvent), step (s.presenting (e :: rest)) = .next ((f s).presenting rest)

/-- A run serves the events at the port one after the other. -/
theorem runSteps_of_serves {events : List HostEvent} {fs : List (State → State)}
    (h : List.Forall₂ Serves events fs) (s : State) (rest : List HostEvent) :
    runSteps events.length (s.presenting (events ++ rest)) =
      .next ((fs.foldl (fun t f => f t) s).presenting rest) := by
  induction h generalizing s with
  | nil => rfl
  | cons hserves _ ih => exact (runSteps_succ _ (hserves s _)).trans (ih _)

/-- What CFG_NODE_ID leaves (R191). -/
def State.withNodeId (id : BitVec 32) (s : State) : State := { s with nodeId := .holds id, status := statusOk }

/-- What CFG_MODE leaves (R192). -/
def State.withLegacy (lg : BitVec 1) (s : State) : State := { s with legacy := .holds lg, status := statusOk }

/-- What CTR_WRITE leaves (R193). -/
def State.withCtr (c : BitVec 3) (s : State) : State := { s with ctr := .holds c, status := statusOk }

theorem serves_cfgNodeId (b : Buses) : Serves (.operation (encode .cfgNodeId) b) (State.withNodeId b.opa) :=
  fun s rest => step_atPort s _ b rest (decodeOfEncodeIsTheOperation _ rfl)

theorem serves_cfgMode (lg : BitVec 1) (b : Buses) :
    Serves (.operation (encode (.cfgMode lg)) b) (State.withLegacy lg) :=
  fun s rest => step_atPort s _ b rest (decodeOfEncodeIsTheOperation _ rfl)

theorem serves_ctrWrite (c : BitVec 3) (b : Buses) : Serves (.operation (encode (.ctrWrite c)) b) (State.withCtr c) :=
  fun s rest => step_atPort s _ b rest (decodeOfEncodeIsTheOperation _ rfl)

/-- Each of the three writes a different register, so any two of them commute (R242). -/
theorem bootWrites_commute (id : BitVec 32) (lg : BitVec 1) (c : BitVec 3) :
    ∀ f ∈ [State.withNodeId id, State.withLegacy lg, State.withCtr c],
      ∀ g ∈ [State.withNodeId id, State.withLegacy lg, State.withCtr c], ∀ s : State, g (f s) = f (g s) := by
  simp [State.withNodeId, State.withLegacy, State.withCtr]

/-- Settles O18: the run makes the three writes in the order presented, and they commute. -/
theorem bootOrderDoesNotMatter : Obligations.BootOrderDoesNotMatter := by
  intro s b1 b2 b3 lg c boot rest hperm hissues
  obtain ⟨writes, hserves, hwrites⟩ := List.perm_comp_forall₂ hperm
    (.cons (serves_cfgNodeId b1) (.cons (serves_cfgMode lg b2) (.cons (serves_ctrWrite c b3) .nil)))
  have hrun := runSteps_of_serves hserves s rest
  rw [hperm.length_eq, State.presenting_eq_self hissues,
    ← hwrites.symm.foldl_eq' (bootWrites_commute b1.opa lg c) s] at hrun
  exact ⟨hrun, rfl, rfl, .inr rfl⟩

end Sys2Proof.Machine
